-- ==== Sys2Proof/Word.lean ====
section
/-! DEFINITION. The word types of the device: bytes, 32-bit instruction words and 64-bit registers (R8, R9). -/

namespace Sys2Proof

/-- A byte of memory or of a scratchpad. -/
abbrev Byte := BitVec 8

/-- A scalar register, a system register or an address (R165, R307). -/
abbrev Word := BitVec 64

/-- A register field of an instruction, six bits wide (R297). -/
abbrev Reg := Fin 64

/-- Bit `n` of a number. -/
abbrev natBit (w n : Nat) : Bool := w / 2 ^ n % 2 == 1

end Sys2Proof
end

