-- ==== Sys2Proof/Config.lean ====
section
/-! DEFINITION. What an implementation fixes, and the values the spec leaves open. A free value is an opaque constant:
nothing can evaluate it, so a claim about it holds whatever it is. `State.free` counts the draws, so that each draw is a
fresh value. -/

namespace Sys2Proof.Config

/-- A value the spec leaves open: a random seed (R278), a window race, a choice of R47. (DESIGN CHOICE: log 9, 10) -/
opaque freeWord : Nat → Word

/-- A choice the spec leaves open between the parties of a race. (DESIGN CHOICE: log 9, 27) -/
opaque freeNat : Nat → Nat

/-- Arithmetic-clock cycles that one step takes; timing is not specified (R444). (DESIGN CHOICE: log 5) -/
opaque stepCycles : Nat → Nat

/-- A 16-byte block of AES-XTS-256 written under one key and read under another (R29, R174): old material, new material,
line (the tweak), block in the line, the block written. (DESIGN CHOICE: log 11) -/
opaque decipher : Nat → Nat → Nat → Nat → BitVec 128 → BitVec 128

/-- The key-store material that a key has which is unwrapped under a key-encryption key, none when the unwrap fails (R87, RFC 5649). (DESIGN CHOICE: log 13) -/
opaque unwrap : Nat → List Word → Option Nat

/-- The content of an SPDM response (R90) to request `n` on a link. (DESIGN CHOICE: log 14) -/
opaque spdmBody : Nat → Nat → List Byte

/-- The measurement block of an SPDM GET_MEASUREMENTS response (R90), from the four image measurements and DEV_STAT.dbg. (DESIGN CHOICE: log 14) -/
opaque measurements : List Nat → Bool → List Byte

/-- Where the boot chain that a warm reset by mailbox command reruns fails (R27, R28), if it does: step 2 to 4, counted
from 0, and its cause. (DESIGN CHOICE: log 13, 88) -/
opaque bootFail : Nat → Option (Fin 3 × Nat)

/-- The silicon revision of the IDCODE version field (R40), which also fixes what remote atomics a target implements
(R73). (DESIGN CHOICE: log 16) -/
opaque revision : Nat

/-- Skovvan's assigned identity, the manufacturer field of IDCODE (R40). (DESIGN CHOICE: log 16) -/
opaque manufacturer : BitVec 11

/-- The pin states that SAMPLE captures (R40). (DESIGN CHOICE: log 16) -/
opaque pins : Nat → BitVec 64

/-- The bytes of the firmware images, as rebuilt after an alarm (R32). (DESIGN CHOICE: log 13) -/
opaque image : Nat → Byte

/-- The severity an error log entry gives for a code whose severity is not stated (R101, R263). (DESIGN CHOICE: log 17) -/
opaque severity : Nat → Nat

/-- The hash that chooses one of the ports of a device route (R61), from the destination address. (DESIGN CHOICE: log 18) -/
opaque routeHash : Nat → Nat

end Sys2Proof.Config
end

