-- ==== Sys2Proof/Syntax.lean ====
section
/-! DEFINITION. The syntax: one constructor of `Instr` per row of spec/opcode_table.json. A row is either a
Fenlas instruction (R303), whose fields stand in one operand structure, or a step of the module (an event),
whose operands are what the outside world or the network brings to that step. -/

namespace Sys2Proof

/-- The type codes of R300. -/
inductive Ty where
  | i8 | i16 | i32 | i64 | n8 | n16 | n32 | n64
  | f64 | f32 | f16 | bf16 | e4m3 | e5m2 | e2m1 | mx4 | mx8 | fb4
  deriving DecidableEq, Repr

/-- The guard of R298: predicate register `g`, negated when `gn`. -/
structure Guard where
  g : Fin 16
  gn : Bool
  deriving DecidableEq, Repr

/-! ### Operand structures of the scalar instructions -/

/-- `op.ty xd, xa, xb`. -/
structure XXX where
  d : Reg
  a : Reg
  b : Reg
  ty : Ty
  gd : Guard
  deriving DecidableEq, Repr

/-- `op.ty xd, xa`. -/
structure XX where
  d : Reg
  a : Reg
  ty : Ty
  gd : Guard
  deriving DecidableEq, Repr

/-- `sel.ty xd, xa, xb, xc`. -/
structure XXXX where
  d : Reg
  a : Reg
  b : Reg
  c : Reg
  ty : Ty
  gd : Guard
  deriving DecidableEq, Repr

/-- The SI form with a source: `op xd, xa, imm`. -/
structure XXI where
  d : Reg
  a : Reg
  imm : BitVec 32
  gd : Guard
  deriving DecidableEq, Repr

/-- The SI form without a source: `li xd, imm`, `lpc xd, off`. -/
structure XI where
  d : Reg
  imm : BitVec 32
  gd : Guard
  deriving DecidableEq, Repr

/-- `li xd, imm64` of opcode 0x11 (R330). -/
structure XI64 where
  d : Reg
  imm : BitVec 64
  gd : Guard
  deriving DecidableEq, Repr

/-- Scalar floating point with two sources; `rm` is the rounding code m[2:0]. -/
structure FXXX where
  d : Reg
  a : Reg
  b : Reg
  ty : Ty
  rm : Fin 8
  gd : Guard
  deriving DecidableEq, Repr

/-- Scalar floating point with one source. -/
structure FXX where
  d : Reg
  a : Reg
  ty : Ty
  rm : Fin 8
  gd : Guard
  deriving DecidableEq, Repr

/-- `fma.ty xd, xa, xb, xc`. -/
structure FXXXX where
  d : Reg
  a : Reg
  b : Reg
  c : Reg
  ty : Ty
  rm : Fin 8
  gd : Guard
  deriving DecidableEq, Repr

/-- `fsgn` (R335): `sub` is m[4:3]. -/
structure FSgn where
  d : Reg
  a : Reg
  b : Reg
  sub : Fin 4
  ty : Ty
  rm : Fin 8
  gd : Guard
  deriving DecidableEq, Repr

/-- A scalar conversion to `ty` from `src` (R332). -/
structure FCvt where
  d : Reg
  a : Reg
  ty : Ty
  src : Ty
  rm : Fin 8
  gd : Guard
  deriving DecidableEq, Repr

/-- Only a guard: `nop`, `vlend`. -/
structure OnlyGuard where
  gd : Guard
  deriving DecidableEq, Repr

/-- `jr xa`, `ret xa`. -/
structure JumpReg where
  a : Reg
  gd : Guard
  deriving DecidableEq, Repr

/-- `jalr xd, xa`. -/
structure JumpLink where
  d : Reg
  a : Reg
  gd : Guard
  deriving DecidableEq, Repr

/-- `b off`. -/
structure BrOff where
  off : BitVec 32
  deriving DecidableEq, Repr

/-- `beq xa, xb, off` and its family. -/
structure BrCmp where
  a : Reg
  b : Reg
  off : BitVec 32
  deriving DecidableEq, Repr

/-- `bpt pa, off`, `bpf pa, off`; `call xd, off`. -/
structure BrReg where
  r : Reg
  off : BitVec 32
  deriving DecidableEq, Repr

/-! ### Operand structures of the scalar memory, atomic and system instructions -/

/-- `ld.ty xd, [xa + imm]`. -/
structure LdF where
  d : Reg
  a : Reg
  imm : BitVec 32
  ty : Ty
  acq : Bool
  fr : Bool
  sc : Fin 16
  gd : Guard
  deriving DecidableEq, Repr

/-- `ldp xd, [xa + imm]`. -/
structure LdpF where
  d : Reg
  a : Reg
  imm : BitVec 32
  acq : Bool
  fr : Bool
  sc : Fin 16
  gd : Guard
  deriving DecidableEq, Repr

/-- `st.ty [xa + imm], xb`. -/
structure StF where
  a : Reg
  b : Reg
  imm : BitVec 32
  ty : Ty
  rel : Bool
  sc : Fin 16
  gd : Guard
  deriving DecidableEq, Repr

/-- `stp [xa + imm], xb`. -/
structure StpF where
  a : Reg
  b : Reg
  imm : BitVec 32
  rel : Bool
  sc : Fin 16
  gd : Guard
  deriving DecidableEq, Repr

/-- `fst.ty [xa + imm], xb` (R348). -/
structure FstF where
  a : Reg
  b : Reg
  imm : BitVec 32
  ty : Ty
  sc : Fin 16
  gd : Guard
  deriving DecidableEq, Repr

/-- An atomic of R351 with two register operands. -/
structure AmoF where
  d : Reg
  a : Reg
  b : Reg
  ty : Ty
  acq : Bool
  rel : Bool
  sc : Fin 16
  gd : Guard
  deriving DecidableEq, Repr

/-- `amocas`, whose new value is x(c). -/
structure CasF where
  d : Reg
  a : Reg
  b : Reg
  c : Reg
  ty : Ty
  acq : Bool
  rel : Bool
  sc : Fin 16
  gd : Guard
  deriving DecidableEq, Repr

/-- A fence or `ssync`: only a scope. -/
structure ScopeF where
  sc : Fin 16
  deriving DecidableEq, Repr

/-- `rel.widen.sc [xa]`. -/
structure WidenF where
  a : Reg
  sc : Fin 16
  deriving DecidableEq, Repr

/-- `sysr xd, idx`. -/
structure SysrF where
  d : Reg
  idx : Fin 4096
  gd : Guard
  deriving DecidableEq, Repr

/-- `sysw xa, idx`, for the indices that have no row of their own. -/
structure SyswF where
  a : Reg
  idx : Fin 4096
  gd : Guard
  deriving DecidableEq, Repr

/-- `sysw xa, r`, where the row fixes the register. -/
structure SyswOne where
  a : Reg
  gd : Guard
  deriving DecidableEq, Repr

/-- `sysw xa, rbN` (R197). -/
structure SyswRbF where
  a : Reg
  n : Fin 4
  gd : Guard
  deriving DecidableEq, Repr

/-! ### Operand structures of the vector instructions

`ca`, `cb` and `cc` are the chain bits of R299; they change only timing. -/

/-- `setvl`, `setvt`, `vloop`. -/
structure SetF where
  d : Reg
  a : Reg
  imm : BitVec 32
  gd : Guard
  deriving DecidableEq, Repr

/-- `op.ty vd, va, vb`. -/
structure VVV where
  d : Reg
  a : Reg
  b : Reg
  ca : Bool
  cb : Bool
  ty : Ty
  gd : Guard
  deriving DecidableEq, Repr

/-- `op.ty vd, va`. -/
structure VV where
  d : Reg
  a : Reg
  ca : Bool
  ty : Ty
  gd : Guard
  deriving DecidableEq, Repr

/-- `vsel.ty vd, va, vb, pc`. -/
structure VVVP where
  d : Reg
  a : Reg
  b : Reg
  c : Reg
  ca : Bool
  cb : Bool
  ty : Ty
  gd : Guard
  deriving DecidableEq, Repr

/-- `op.ty vd, va, xb`; also `vextr.ty xd, va, xb`. -/
structure VVX where
  d : Reg
  a : Reg
  b : Reg
  ca : Bool
  ty : Ty
  gd : Guard
  deriving DecidableEq, Repr

/-- `vsel.ty vd, va, xb, pc`. -/
structure VVXP where
  d : Reg
  a : Reg
  b : Reg
  c : Reg
  ca : Bool
  ty : Ty
  gd : Guard
  deriving DecidableEq, Repr

/-- `op.ty vd, va, imm`. -/
structure VVI where
  d : Reg
  a : Reg
  imm : BitVec 32
  ca : Bool
  ty : Ty
  gd : Guard
  deriving DecidableEq, Repr

/-- `vsel.ty vd, va, imm, pc`. -/
structure VVIP where
  d : Reg
  a : Reg
  c : Reg
  imm : BitVec 32
  ca : Bool
  ty : Ty
  gd : Guard
  deriving DecidableEq, Repr

/-- Vector floating point with two vector sources. -/
structure FVVV where
  d : Reg
  a : Reg
  b : Reg
  ca : Bool
  cb : Bool
  ty : Ty
  rm : Fin 8
  gd : Guard
  deriving DecidableEq, Repr

/-- Vector floating point with one vector source. -/
structure FVV where
  d : Reg
  a : Reg
  ca : Bool
  ty : Ty
  rm : Fin 8
  gd : Guard
  deriving DecidableEq, Repr

/-- Fused vector floating point with three vector sources. -/
structure FVVVV where
  d : Reg
  a : Reg
  b : Reg
  c : Reg
  ca : Bool
  cb : Bool
  cc : Bool
  ty : Ty
  rm : Fin 8
  gd : Guard
  deriving DecidableEq, Repr

/-- `vfsgn` with a vector source B. -/
structure FVSgn where
  d : Reg
  a : Reg
  b : Reg
  sub : Fin 4
  ca : Bool
  cb : Bool
  ty : Ty
  rm : Fin 8
  gd : Guard
  deriving DecidableEq, Repr

/-- Vector floating point with a scalar source B. -/
structure FVVX where
  d : Reg
  a : Reg
  b : Reg
  ca : Bool
  ty : Ty
  rm : Fin 8
  gd : Guard
  deriving DecidableEq, Repr

/-- Fused vector floating point with a scalar source B. -/
structure FVVXV where
  d : Reg
  a : Reg
  b : Reg
  c : Reg
  ca : Bool
  cc : Bool
  ty : Ty
  rm : Fin 8
  gd : Guard
  deriving DecidableEq, Repr

/-- `vfsgn` with a scalar source B. -/
structure FVSgnX where
  d : Reg
  a : Reg
  b : Reg
  sub : Fin 4
  ca : Bool
  ty : Ty
  rm : Fin 8
  gd : Guard
  deriving DecidableEq, Repr

/-- `vcmp.* pd, va, vb` or, with `xb`, `pd, va, xb` (R377). -/
structure VCmp where
  d : Reg
  a : Reg
  b : Reg
  xb : Bool
  ca : Bool
  cb : Bool
  ty : Ty
  gd : Guard
  deriving DecidableEq, Repr

/-- Predicate instructions with two sources: `pand pd, pa, pb`. -/
structure PPP where
  d : Reg
  a : Reg
  b : Reg
  gd : Guard
  deriving DecidableEq, Repr

/-- `pnot pd, pa`; `pfirst xd, pa`; `pset pd, xa`. -/
structure PP where
  d : Reg
  a : Reg
  gd : Guard
  deriving DecidableEq, Repr

/-- Reductions `op.ty xd, va, xb`. -/
structure VRed where
  d : Reg
  a : Reg
  b : Reg
  ca : Bool
  ty : Ty
  rm : Fin 8
  gd : Guard
  deriving DecidableEq, Repr

/-- `vreds.*.ty.gG xd, va, xb, xc` (R383). -/
structure VRedS where
  d : Reg
  a : Reg
  b : Reg
  c : Reg
  grp : Fin 8
  ca : Bool
  ty : Ty
  rm : Fin 8
  gd : Guard
  deriving DecidableEq, Repr

/-- `vcvt` (R385): `b` names the band scale of the FB4 source. -/
structure VCvt where
  d : Reg
  a : Reg
  b : Reg
  sat : Bool
  ca : Bool
  ty : Ty
  src : Ty
  rm : Fin 8
  gd : Guard
  deriving DecidableEq, Repr

/-- `vcvti`, `vicvt`. -/
structure VCvt2 where
  d : Reg
  a : Reg
  ca : Bool
  ty : Ty
  src : Ty
  rm : Fin 8
  gd : Guard
  deriving DecidableEq, Repr

/-- `vquant` (R387). -/
structure VQnt where
  d : Reg
  a : Reg
  b : Reg
  ca : Bool
  ty : Ty
  src : Ty
  rm : Fin 8
  gd : Guard
  deriving DecidableEq, Repr

/-- `vld`, `vldff`. -/
structure VLdF where
  d : Reg
  a : Reg
  imm : BitVec 32
  ty : Ty
  fr : Bool
  sc : Fin 16
  gd : Guard
  deriving DecidableEq, Repr

/-- `vst`. -/
structure VStF where
  a : Reg
  b : Reg
  imm : BitVec 32
  cb : Bool
  ty : Ty
  sc : Fin 16
  gd : Guard
  deriving DecidableEq, Repr

/-- `vlds`, `vldt`. -/
structure VLdsF where
  d : Reg
  a : Reg
  b : Reg
  imm : BitVec 32
  ty : Ty
  fr : Bool
  sc : Fin 16
  gd : Guard
  deriving DecidableEq, Repr

/-- `vsts`. -/
structure VStsF where
  a : Reg
  b : Reg
  c : Reg
  imm : BitVec 32
  cb : Bool
  ty : Ty
  sc : Fin 16
  gd : Guard
  deriving DecidableEq, Repr

/-- `vgath`. -/
structure VGathF where
  d : Reg
  a : Reg
  b : Reg
  cb : Bool
  ty : Ty
  fr : Bool
  sc : Fin 16
  gd : Guard
  deriving DecidableEq, Repr

/-- `vscat`. -/
structure VScatF where
  a : Reg
  b : Reg
  c : Reg
  cb : Bool
  cc : Bool
  ty : Ty
  sc : Fin 16
  gd : Guard
  deriving DecidableEq, Repr

/-! ### Operand structures of the matrix and engine instructions -/

/-- `matt xd, xa`. -/
structure MAttF where
  d : Reg
  a : Reg
  rm : Fin 8
  gd : Guard
  deriving DecidableEq, Repr

/-- `mdet`. -/
structure MDetF where
  rm : Fin 8
  gd : Guard
  deriving DecidableEq, Repr

/-- `mzero td`. -/
structure MZeroF where
  d : Reg
  rm : Fin 8
  gd : Guard
  deriving DecidableEq, Repr

/-- `mma` (R404): `w` is m[3]. -/
structure MmaF where
  d : Reg
  a : Reg
  b : Reg
  ca : Bool
  cb : Bool
  w : Bool
  ty : Ty
  rm : Fin 8
  gd : Guard
  deriving DecidableEq, Repr

/-- `mmam` (R407). -/
structure MmamF where
  d : Reg
  a : Reg
  b : Reg
  c : Reg
  ca : Bool
  w : Bool
  ty : Ty
  rm : Fin 8
  gd : Guard
  deriving DecidableEq, Repr

/-- The scale fields of the block forms (R406). -/
structure Scales where
  sa : Reg
  sb : Reg
  xba : Reg
  xbb : Reg
  deriving DecidableEq, Repr

/-- The block form of `mma`. -/
structure MmaBF where
  f : MmaF
  s : Scales
  deriving DecidableEq, Repr

/-- The block form of `mmam`. -/
structure MmamBF where
  f : MmamF
  s : Scales
  deriving DecidableEq, Repr

/-- `mldt td, [xa], xb`; `mmov vd, ta, xb`. -/
structure MRowF where
  d : Reg
  a : Reg
  b : Reg
  ty : Ty
  rm : Fin 8
  gd : Guard
  deriving DecidableEq, Repr

/-- `mstt [xa], xb, tc`. -/
structure MSttF where
  a : Reg
  b : Reg
  c : Reg
  ty : Ty
  rm : Fin 8
  gd : Guard
  deriving DecidableEq, Repr

/-- `mmov.wr td, va, xb`. -/
structure MMovWrF where
  d : Reg
  a : Reg
  b : Reg
  ca : Bool
  ty : Ty
  rm : Fin 8
  gd : Guard
  deriving DecidableEq, Repr

/-- `fork xa, k, w` with the packed immediate of R414. -/
structure ForkF where
  a : Reg
  imm : BitVec 32
  deriving DecidableEq, Repr

/-- `ind xd, stride`; `rgn.begin xd, limit`. -/
structure RegImm where
  d : Reg
  imm : BitVec 32
  deriving DecidableEq, Repr

/-- `rgn.keep xa, xb`. -/
structure KeepF where
  a : Reg
  b : Reg
  deriving DecidableEq, Repr

/-- `send`, `sends` (R422). -/
structure SendF where
  d : Reg
  a : Reg
  b : Reg
  c : Reg
  sand : Bool
  sc : Fin 16 := 0
  gd : Guard
  deriving DecidableEq, Repr

/-- `mpoll`, `mwait`, `mpop`: `a` is the buffer number. -/
structure MBufF where
  d : Reg
  a : Reg
  sc : Fin 16 := 0
  gd : Guard
  deriving DecidableEq, Repr

/-- `ratom` (R426): `c` is the operation code. -/
structure RatomF where
  d : Reg
  a : Reg
  b : Reg
  c : Reg
  acq : Bool
  rel : Bool
  sc : Fin 16
  ty : Ty
  gd : Guard
  deriving DecidableEq, Repr

/-- `cpy chN, [xa], [xb], xc`: `d` is the channel. -/
structure CpyF where
  d : Reg
  a : Reg
  b : Reg
  c : Reg
  sand : Bool
  sc : Fin 16
  gd : Guard
  deriving DecidableEq, Repr

/-- `cpyv chN, [xa], vb, xc`; `ty` is its type field, which `cb` lets a transfer to memory alone judge (R306). -/
structure CpyvF where
  d : Reg
  a : Reg
  b : Reg
  c : Reg
  cb : Bool
  sand : Bool
  sc : Fin 16
  ty : Fin 64 := 0
  gd : Guard
  deriving DecidableEq, Repr

/-- `drain chN`: `a` is the channel. -/
structure DrainF where
  a : Reg
  sc : Fin 16
  gd : Guard
  deriving DecidableEq, Repr

/-- `pref qN, [xa], xb`; `qpop xd, [xa], [xb]`. -/
structure TriF where
  d : Reg
  a : Reg
  b : Reg
  sc : Fin 16
  gd : Guard
  deriving DecidableEq, Repr

/-- `qwait xd, qN`; `arm xd, xa`. -/
structure DuoF where
  d : Reg
  a : Reg
  sc : Fin 16
  gd : Guard
  deriving DecidableEq, Repr

/-- `qpush [xa], [xb]`. -/
structure QPushF where
  a : Reg
  b : Reg
  sc : Fin 16
  gd : Guard
  deriving DecidableEq, Repr

/-- `exit`. -/
structure ExitF where
  sc : Fin 16
  gd : Guard
  deriving DecidableEq, Repr

/-! ### Operands of the module's own steps -/

/-- What a boot brings (R25, R27, R28, R247). -/
structure BootReport where
  /-- The first step of R28 that fails with its cause, or none when all five succeed. -/
  failed : Option (Nat × Nat)
  /-- Lanes the power-on self-test retires, per core (R247). -/
  selfTest : List (Nat × BitVec 64)
  deriving DecidableEq, Repr

/-- One power measurement (R25): watts and degrees Celsius. -/
structure PowerSample where
  pkgW : BitVec 16
  modW : BitVec 16
  temp : Int
  deriving DecidableEq, Repr

/-- How a register write reaches the device: through io space, or through BAR0 of a link (R18, R57, R84, R176). -/
inductive RegPath where
  | io (pa : Nat)
  | bar0 (link : Fin 8) (off size : Nat)
  deriving DecidableEq, Repr

/-- What PLDM_FW_UPDATE sets (R38, R39): the image of a boot stage, or the ports that bifurcate, as a mask. -/
inductive PldmItem where
  | image (stage : Fin 4)
  | bifurcation
  deriving DecidableEq, Repr

/-- A CXL.mem request: the link it comes through and its line of 64 bytes. -/
structure MemReq where
  link : Fin 8
  line : Nat
  deriving DecidableEq, Repr

/-- The doorbell of a job, and the link through which it is written (R76, R96). -/
structure BellPath where
  link : Fin 8
  job : Fin 256
  deriving DecidableEq, Repr

/-- A detected error (R249): the instruction's address, and whether another error is detected during the rollback that this one
causes (R259). -/
structure ErrorAt where
  pc : BitVec 64
  again : Bool
  deriving DecidableEq, Repr

/-- An error in memory (R250, R251): the physical address, and that of the instruction whose access read it (R263). -/
structure MemError where
  pa : Nat
  pc : BitVec 64
  deriving DecidableEq, Repr

/-- How a link trained (R38, R75, R76). -/
inductive TrainKind where
  | full          -- CXL.cache and CXL.mem
  | ioOnly        -- CXL.io alone, with 256-byte flits
  | plainPcie     -- the partner cannot run 256-byte flits
  deriving DecidableEq, Repr

/-- A remote atomic's operation (R427): type, operation code and operands. -/
structure AtomOp where
  ty : Ty
  op : Nat
  b : Nat
  b2 : Nat
  deriving DecidableEq, Repr

/-- The head of what another device asks (R44, R71), by the packet kind it becomes at the target: a message (7), a put (8), a
get (1) or a remote atomic (3); the core, the payload's length, and an access's offset and size. -/
structure UalHead where
  kind : Nat
  core : Nat
  buf : Fin 4
  score : Nat
  mseq : BitVec 32
  tag : BitVec 64
  len : Nat
  sand : Bool
  sdl : Nat
  off : Nat
  size : Nat
  atom : Option AtomOp
  deriving DecidableEq, Repr

/-- What a UALink transaction carries (R71, R72): a head; up to 256 bytes of the payload of the head with its number, at an
offset; or an answer to it, by packet kind, with the blocks present and the bytes asked for. -/
inductive UalBody where
  | head (h : UalHead)
  | data (sand : Bool) (off : Nat) (bytes : List (BitVec 8))
  | answer (kind : Nat) (mask : BitVec 64) (bytes : List (BitVec 8))
  deriving DecidableEq, Repr

/-- A received UALink flit (R35): its counter, whether the link CRC and the authentication hold, the job key, the other device,
the number of the transaction that was asked, and what it carries. -/
structure UalFlit where
  ctr : Nat
  ok : Bool
  key : BitVec 16
  dev : Nat
  id : Nat
  body : UalBody
  deriving DecidableEq, Repr

/-- The state a host grants with GO (R79, R80). -/
inductive GoGrant where
  | shared
  | exclusive
  deriving DecidableEq, Repr

/-- A host filter state (R82), also the meta value of a MemWr. -/
inductive FilterSt where
  | n | s | a
  deriving DecidableEq, Repr

/-- The host's answer to a back-invalidate (R82, R83). -/
inductive BiRsp where
  | inv
  | shared
  deriving DecidableEq, Repr

/-- Why a core is interrupted (R124, R229). -/
inductive IntrKind where
  | sched       -- an interrupt of the scheduler, code 0x40
  | park        -- parking, R122
  | cancel      -- cancellation, R89 and R110
  | scopeMiss   -- smev set with ie 1, code 0x41
  | faultQueue (cluster : Fin 32)  -- FRQ tail advanced with ie 1, code 0x42
  deriving DecidableEq, Repr

/-- A reader of a failed lane's result (R244): its address. -/
structure LaneFail where
  core : Nat
  lane : Fin 64
  /-- Address of the failed instruction. -/
  pc : BitVec 64
  /-- Address of a later instruction that has read the failed result, if any has. -/
  reader : Option (BitVec 64)
  deriving DecidableEq, Repr

/-- One constructor per row of spec/opcode_table.json, in the table's order. -/
inductive Instr where
  -- 01: resets, clocks, power, alarm, links, management, debug
  | coldReset (b : BootReport)
  | moduleWarmReset (b : BootReport)
  | governorSample (n : Fin 32) (depth : BitVec 8)
  | governorMoveDone (n : Fin 32)
  | powerMeasurement (m : PowerSample)
  | thermalTrip
  | tamperAlarm (sensor : Fin 5)
  | almCfgWrite (w : BitVec 64)
  | registerWrite (r : RegPath) (w : BitVec 64)
  | ualinkFlitTransmit (p : Fin 24)
  | ualinkFlitReceive (p : Fin 24) (f : UalFlit)
  | cxlLinkTrain (l : Fin 8) (k : TrainKind)
  | cxlLinkLoss (l : Fin 8)
  | tapBypass
  | tapIdcode
  | tapSamplePreload
  | tapExtest
  | invasiveDebugEnable (ok : Bool)
  | pldmMonitor
  | pldmFwUpdate (item : PldmItem) (v : Nat)
  -- 02: torus, packets, sand
  | routerCycle (n : Fin 256)
  | starve (n : Fin 256)
  | packetArrival (pid : Nat) (flips : List (Nat × Nat))
  | refusedReceipt (pid : Nat)
  | acknowledgeReceipt (pid : Nat)
  | deniedReceipt (pid : Nat)
  | messageResend (pid : Nat)
  | sandWindowEnd (pid : Nat)
  | sandSourceTimeout (pid : Nat) (block : Nat)
  -- 03: host
  | snpData (half : Nat)
  | snpInv (half : Nat)
  | snpCur (half : Nat)
  | goReceipt (half : Nat) (g : GoGrant) (data : BitVec 512)
  | hostLineCoreRead (half core : Nat)
  | hostLineCoreWrite (half core : Nat)
  | hostLineEviction (half : Nat)
  | memRdShared (r : MemReq)
  | memRdAny (r : MemReq)
  | memWr (r : MemReq) (data : BitVec 512) (mask : BitVec 64) (m : FilterSt)
  | biCoreRead (l core : Nat)
  | biCoreWrite (l core : Nat)
  | birspReceipt (l : Nat) (r : BiRsp) (data : Option (BitVec 512))
  | filterEviction (l : Nat)
  | doorbellWrite (b : BellPath) (w : BitVec 64)
  | doorbellServe (j : Fin 256)
  | status
  | jobOpen
  | jobClose
  | jobCloseDrainDone (j : Fin 256)
  | keyInstall
  | keyClear
  | linkKey
  | warmReset
  | mbxCompletion
  | getVersion (l : Fin 8)
  | getCapabilities (l : Fin 8)
  | negotiateAlgorithms (l : Fin 8)
  | getDigests (l : Fin 8)
  | getCertificate (l : Fin 8)
  | challenge (l : Fin 8) (ok : Bool)
  | getMeasurements (l : Fin 8) (signedOk : Bool)
  | keyExchange (l : Fin 8)
  | finish (l : Fin 8) (ok : Bool)
  | endSession (l : Fin 8)
  | tlbiPage
  | tlbiKey
  | tlbiAll
  | tlbiNothing
  | tlbiDone
  -- 04: scheduler
  | launchCompletion (j : Fin 256) (r : Fin 4096)
  | conditionEval (j : Fin 256) (r : Fin 4096)
  | switchEval (j : Fin 256) (r : Fin 4096)
  | loopIteration (j : Fin 256) (r : Fin 4096)
  | loopBodyDone (j : Fin 256) (r : Fin 4096)
  | ringAssignment (us : Nat)
  | park (j : Fin 256) (r : Fin 4096)
  | interruptDelivery (ring : Fin 256) (k : IntrKind)
  -- 05: chunks
  | liveOutArrival (ring : Fin 256)
  | storeBroadcastArrival (ring : Fin 256)
  | chunkRestart (core : Fin 4096)
  | lookBackProbe (core : Fin 4096) (line : Nat)
  | siblingInvalidation (core : Fin 4096) (line : Nat) (fwd : Bool)
  | chunkCommit (core : Fin 4096)
  | loopExit (core : Fin 4096)
  | commitPointExecute (core : Fin 4096)
  | deferredFaultReplay (core : Fin 4096)
  | overflowStallEnd (core : Fin 4096)
  | loadResponse (core : Fin 4096) (entry : Fin 64)
  -- 06: coherence, copies, prefetch
  | gets (core : Fin 4096) (line : Nat)
  | getx (core : Fin 4096) (line : Nat)
  | upg (core : Fin 4096) (line : Nat)
  | puts (core : Fin 4096) (line : Nat)
  | putx (core : Fin 4096) (line : Nat)
  | invalidationReceipt (core : Fin 4096) (line : Nat)
  | forwardReceipt (core : Fin 4096) (line : Nat)
  | invalidationAck (core : Fin 4096) (line : Nat)
  | dataReceipt (core : Fin 4096) (line : Nat)
  | directoryEviction (line : Nat)
  | softWriteBack (core : Fin 4096) (line : Nat)
  | drainRequest (core : Fin 4096) (line : Nat)
  | drainAck (core : Fin 4096) (line : Nat)
  | partialEviction (core : Fin 4096) (line : Nat)
  | scopeMissEvent (ring : Fin 256)
  | copyKick (core : Fin 4096) (ch : Fin 4) (parity : Bool)
  | copyCompletion (core : Fin 4096) (ch : Fin 4)
  | prefComplete (core : Fin 4096) (q : Fin 8)
  -- 08: errors
  | laneResidueFailure (f : LaneFail)
  | scalarResidueFailure (core : Fin 4096) (pc : BitVec 64)
  | detectedError (core : Fin 4096) (e : ErrorAt)
  | memoryUncorrectableError (e : MemError)
  | correctableError (e : MemError)
  | icacheParityError (core : Fin 4096) (line : Nat)
  -- 10, 13: the pad word and waits
  | padWord
  | ssyncComplete (j : Fin 256) (r : Fin 4096) (sc : Fin 16) (unit : Nat)
  | drainComplete (core : Fin 4096)
  | mwaitWake (core : Fin 4096)
  | qpushEvent (core : Fin 4096)
  | qpopEvent (core : Fin 4096)
  | syswRb (o : SyswRbF)
  | syswSmev (o : SyswOne)
  | syswTstk (o : SyswOne)
  | syswSrseed (o : SyswOne)
  | syswVl (o : SyswOne)
  | syswVtype (o : SyswOne)
  | syswTshape (o : SyswOne)
  | syswSpecst (o : SyswOne)
  -- 11: scalar
  | add (o : XXX) | sub (o : XXX) | mul (o : XXX) | mulh (o : XXX) | div (o : XXX) | rem (o : XXX)
  | and (o : XXX) | or (o : XXX) | xor (o : XXX) | andn (o : XXX) | sll (o : XXX) | srl (o : XXX)
  | sra (o : XXX) | rol (o : XXX) | min (o : XXX) | max (o : XXX) | adds (o : XXX) | subs (o : XXX)
  | seq (o : XXX) | slt (o : XXX) | sle (o : XXX) | sel (o : XXXX)
  | clz (o : XX) | ctz (o : XX) | popc (o : XX) | ext (o : XXX) | mov (o : XX)
  | addi (o : XXI) | andi (o : XXI) | ori (o : XXI) | xori (o : XXI) | slli (o : XXI) | srli (o : XXI)
  | srai (o : XXI) | slti (o : XXI) | sltui (o : XXI) | li (o : XI) | lih (o : XXI) | liImm64 (o : XI64)
  | lpc (o : XI)
  | fadd (o : FXXX) | fsub (o : FXXX) | fmul (o : FXXX) | fdiv (o : FXXX) | fsqrt (o : FXX)
  | fma (o : FXXXX) | fmin (o : FXXX) | fmax (o : FXXX) | fsgn (o : FSgn) | feq (o : FXXX)
  | flt (o : FXXX) | fle (o : FXXX) | fclass (o : FXX) | fcvt (o : FCvt) | fcvti (o : FCvt)
  | ficvt (o : FCvt)
  | nop (o : OnlyGuard) | jr (o : JumpReg) | jalr (o : JumpLink) | ret (o : JumpReg)
  | b (o : BrOff) | beq (o : BrCmp) | bne (o : BrCmp) | blt (o : BrCmp) | bge (o : BrCmp)
  | bltu (o : BrCmp) | bgeu (o : BrCmp) | bpt (o : BrReg) | bpf (o : BrReg) | call (o : BrReg)
  | ld (o : LdF) | ldp (o : LdpF) | st (o : StF) | stp (o : StpF) | fst (o : FstF)
  | amoadd (o : AmoF) | amoand (o : AmoF) | amoor (o : AmoF) | amoxor (o : AmoF) | amoswap (o : AmoF)
  | amocas (o : CasF) | amomin (o : AmoF) | amomax (o : AmoF) | amofadd (o : AmoF) | amofmax (o : AmoF)
  | fenceAcq (o : ScopeF) | fenceRel (o : ScopeF) | fenceFull (o : ScopeF) | ssync (o : ScopeF)
  | relWiden (o : WidenF) | sysr (o : SysrF) | sysw (o : SyswF) | tret | uret
  -- 12: vector
  | setvl (o : SetF) | setvt (o : SetF) | vloop (o : SetF) | vlend (o : OnlyGuard)
  | vadd (o : VVV) | vsub (o : VVV) | vmul (o : VVV) | vmulh (o : VVV) | vdiv (o : VVV) | vrem (o : VVV)
  | vand (o : VVV) | vor (o : VVV) | vxor (o : VVV) | vandn (o : VVV) | vsll (o : VVV) | vsrl (o : VVV)
  | vsra (o : VVV) | vmin (o : VVV) | vmax (o : VVV) | vadds (o : VVV) | vsubs (o : VVV)
  | vabs (o : VV) | vneg (o : VV) | vmov (o : VV) | vsel (o : VVVP) | vext (o : VVV)
  | vaddScalar (o : VVX) | vsubScalar (o : VVX) | vmulScalar (o : VVX) | vmulhScalar (o : VVX)
  | vdivScalar (o : VVX) | vremScalar (o : VVX) | vandScalar (o : VVX) | vorScalar (o : VVX)
  | vxorScalar (o : VVX) | vandnScalar (o : VVX) | vsllScalar (o : VVX) | vsrlScalar (o : VVX)
  | vsraScalar (o : VVX) | vminScalar (o : VVX) | vmaxScalar (o : VVX) | vaddsScalar (o : VVX)
  | vsubsScalar (o : VVX) | vselScalar (o : VVXP) | vextScalar (o : VVX)
  | vaddImm (o : VVI) | vsubImm (o : VVI) | vmulImm (o : VVI) | vmulhImm (o : VVI) | vdivImm (o : VVI)
  | vremImm (o : VVI) | vandImm (o : VVI) | vorImm (o : VVI) | vxorImm (o : VVI) | vandnImm (o : VVI)
  | vsllImm (o : VVI) | vsrlImm (o : VVI) | vsraImm (o : VVI) | vminImm (o : VVI) | vmaxImm (o : VVI)
  | vaddsImm (o : VVI) | vsubsImm (o : VVI) | vselImm (o : VVIP) | vextImm (o : VVI)
  | vfadd (o : FVVV) | vfsub (o : FVVV) | vfmul (o : FVVV) | vfdiv (o : FVVV) | vfsqrt (o : FVV)
  | vfma (o : FVVVV) | vfms (o : FVVVV) | vfnma (o : FVVVV) | vfmin (o : FVVV) | vfmax (o : FVVV)
  | vfsgn (o : FVSgn) | vfabs (o : FVV) | vfneg (o : FVV)
  | vfaddScalar (o : FVVX) | vfsubScalar (o : FVVX) | vfmulScalar (o : FVVX) | vfdivScalar (o : FVVX)
  | vfmaScalar (o : FVVXV) | vfmsScalar (o : FVVXV) | vfnmaScalar (o : FVVXV)
  | vfminScalar (o : FVVX) | vfmaxScalar (o : FVVX) | vfsgnScalar (o : FVSgnX)
  | vcmpEq (o : VCmp) | vcmpNe (o : VCmp) | vcmpLt (o : VCmp) | vcmpLe (o : VCmp) | vcmpGt (o : VCmp)
  | vcmpGe (o : VCmp) | vcmpUn (o : VCmp) | vfclass (o : VVX)
  | pand (o : PPP) | por (o : PPP) | pxor (o : PPP) | pandn (o : PPP) | pnot (o : PP) | pmov (o : PP)
  | pfirst (o : PP) | pcount (o : PP) | pset (o : PP)
  | vperm (o : VVV) | vbcast (o : XX) | vslideup (o : VVX) | vslidedn (o : VVX) | vcompress (o : VV)
  | vexpand (o : VV) | vextr (o : VVX) | vins (o : XXX) | vrev (o : VV)
  | vredoSum (o : VRed) | vredtSum (o : VRed) | vredMax (o : VRed) | vredMin (o : VRed)
  | vredAnd (o : VRed) | vredOr (o : VRed) | vredXor (o : VRed) | vredsSum (o : VRedS)
  | vredsMean (o : VRedS)
  | vsscanSum (o : VRed) | vsscanMax (o : VRed) | vsredSum (o : VRed) | vsredMax (o : VRed)
  | vcvt (o : VCvt) | vcvti (o : VCvt2) | vicvt (o : VCvt2) | vquant (o : VQnt)
  | vld (o : VLdF) | vst (o : VStF) | vlds (o : VLdsF) | vsts (o : VStsF) | vgath (o : VGathF)
  | vscat (o : VScatF) | vldff (o : VLdF) | vldt (o : VLdsF)
  -- 13: matrix, speculation, regions, messages, copies, launch
  | matt (o : MAttF) | mdet (o : MDetF) | mzero (o : MZeroF) | mma (o : MmaF) | mmam (o : MmamF)
  | mmaBlock (o : MmaBF) | mmamBlock (o : MmamBF) | mldt (o : MRowF) | mstt (o : MSttF)
  | mmov (o : MRowF) | mmovWr (o : MMovWrF)
  | fork (o : ForkF) | chk | join | nospec | ind (o : RegImm)
  | rgnBegin (o : RegImm) | rgnKeep (o : KeepF) | rgnEnd
  | send (o : SendF) | sends (o : SendF) | mpoll (o : MBufF) | mwait (o : MBufF) | mpop (o : MBufF)
  | ratom (o : RatomF) | cpy (o : CpyF) | cpyv (o : CpyvF) | drain (o : DrainF) | pref (o : TriF)
  | qwait (o : DuoF) | arm (o : DuoF) | qpush (o : QPushF) | qpop (o : TriF) | exit (o : ExitF)
  -- 01, 05, 03: the last three rows of the table
  | powerOff
  | coreRetentionSleep (core : Fin 4096)
  | ideKmRequest (l : Fin 8) (stream : Fin 2) (switch : Bool)
  deriving DecidableEq, Repr

end Sys2Proof
end

