-- ==== Sys2Proof/Machine/State.lean ====
section
/-! DEFINITION. The state of the module: plain data, every piece of state the spec gives it, the names of its stops,
and the state right after a cold reset. Tables are lists of entries with rising keys; an absent entry is at its reset
value. -/

namespace Sys2Proof.Machine

open Sys2Proof

/-- Sparse storage: entries with rising keys. -/
abbrev Table (α : Type) := List (Nat × α)

/-- Why the machine stops. (DESIGN CHOICE: log 101) -/
inductive Fault where
  /-- Raised by `step` when every clock but the management block's has stopped (R25 at 115 °C, R32 under pol 2) and no
  event is pending: nothing runs until a reset or power cycle. Safe. -/
  | clocksStopped
  deriving DecidableEq, Repr

/-- Why an instruction has no meaning here. (DESIGN CHOICE: log 101) -/
inductive Refusal where
  /-- Raised by an arm of `exec` that has no meaning yet. Safe. -/
  | notModelled (mnemonic : String)
  deriving DecidableEq, Repr

/-- What moves next. (DESIGN CHOICE: log 4) -/
inductive Turn where
  /-- Core `c` issues its next instruction. -/
  | core (c : Nat)
  /-- A step of the module, with what the outside world brings to it. -/
  | event (i : Instr)
  /-- The firmware handler of core `c` delivers the trap it holds to the user handler (R232). -/
  | deliver (c : Nat)
  deriving DecidableEq, Repr

/-! ### Cores -/

/-- The strip context of R369. -/
structure Strip where
  act : Bool := false
  start : Word := 0
  exit : Word := 0
  rem : Nat := 0
  done : Nat := 0
  slen : Nat := 0
  ix : Reg := 0
  deriving DecidableEq, Repr

/-- A fork level of R134: `f` and `e` are the addresses of the `fork` and its `chk`, `seed` is `srseed` as it stood
when the level was pushed (R276). -/
structure Level where
  f : Word
  e : Word
  n : Nat
  k : Nat
  iter : Nat
  forked : Bool
  seed : Word
  deriving DecidableEq, Repr

/-- `tshape` (R400). -/
structure TShape where
  rows : Nat := 16
  cols : Nat := 128
  deriving DecidableEq, Repr

/-- What an open recovery region has recorded (R253); `start` is the log tail in 16-byte units, `snap` the log offset
of its last register snapshot, `xd` and `resume` what a rollback needs to resume (R259). -/
structure Region where
  start : Nat
  vl : Nat
  vtype : Word
  frm : Nat
  tshape : TShape
  fflags : BitVec 5
  levels : List Level
  strip : Strip
  limit : Nat
  retry : Nat
  unrec : Bool
  snap : Option Nat
  xd : Reg
  resume : Word
  deriving DecidableEq, Repr

/-- A receive ring buffer register (R197). -/
structure Rb where
  tail : Nat := 0
  head : Nat := 0
  lsz : Nat := 0
  base : Nat := 0
  en : Bool := false
  deriving DecidableEq, Repr

/-- A release tag (R223). -/
structure RelTag where
  key : Nat
  ring : Nat
  scope : Nat
  /-- Virtual address bits [56:7]. -/
  line : Nat
  deriving DecidableEq, Repr

/-- The version state of a level-one line (R141); an invalid line has no entry. -/
inductive LState where
  | n
  | s (tag : Nat)
  | g (depth : Nat)
  deriving DecidableEq, Repr

/-- The coherence state of a level-one line (R183). -/
inductive LCoh where
  | inv | sh | own
  deriving DecidableEq, Repr

/-- What an access says of itself in its packet's head: release, acquire, freshness and scope (R44). -/
structure Flags where
  rel : Bool := false
  acq : Bool := false
  fresh : Bool := false
  sc : Nat := 0
  deriving DecidableEq, Repr

/-- A level-one line. `data` holds the bytes of a soft line and of a versioned line; `sdirty` is the dirty mask of a soft
line (R187), or of a version's bytes, and `full` its words that one instruction has filled (R251); `present` marks the words a
version holds (R186), and `bad` those over poisoned data; `va` is the virtual address it was reached by; `rel` is the tag of a
core-scope release store that a version holds (R223). -/
structure Line where
  st : LState := .n
  coh : LCoh := .inv
  dirty : Bool := false
  soft : Bool := false
  sdirty : BitVec 128 := 0
  full : BitVec 16 := 0
  bad : BitVec 16 := 0
  data : BitVec 1024 := 0
  sw : BitVec 16 := 0
  er : BitVec 16 := 0
  present : BitVec 16 := 0
  va : Nat := 0
  key : Nat := 0
  rel : Option RelTag := none
  deriving DecidableEq, Repr

/-- A translation held by a TLB (R175): the job key tag, the page and its leaf. (DEDUCED: log 33) -/
structure Leaf where
  key : Nat
  page : Nat
  size : Nat
  /-- The 4 KiB page of a 64 KiB one whose own entry the walker saw: this translation serves only it (R173). -/
  seen : Option Nat := none
  frame : Nat
  cls : Nat
  cfmt : Nat
  hom : Nat
  hp : Nat
  tier : Nat
  kid : Nat
  r : Bool
  w : Bool
  x : Bool
  deriving DecidableEq, Repr

/-- A scratchpad store part held until commit (R147): its window key, size and bytes, and the store it belongs to. -/
structure SbEntry where
  addr : Nat
  size : Nat
  data : Nat
  pc : Word
  deriving DecidableEq, Repr

/-- A contribution that a chunk holds until commit (R143), with its address, instruction and element for a denial (R56). -/
structure Contrib where
  key : Nat
  pa : Nat
  fmt : Nat
  val : Nat
  va : Nat
  pc : Word
  elem : Nat
  deriving DecidableEq, Repr

/-- What a core waits for; its pc still names the waiting instruction. (DEDUCED: log 51, 91) -/
inductive Wait where
  | none
  /-- `ssync` at a scope, in an episode (R216); the arrival has been counted. -/
  | ssync (sc : Nat) (episode : Nat)
  | drain (o : DrainF)
  | mwait (o : MBufF)
  | qpush (o : QPushF)
  /-- For so many microseconds, on the queue whose descriptor is at an address; `yieldPt` when it is a yield point of
  R119. -/
  | qpop (o : TriF) (us : Nat) (yieldPt : Bool)
  | token (q : Fin 8)
  /-- A host-line cache half awaits GO (R80). -/
  | go (half : Nat)
  /-- A back-invalidate of a module line is outstanding (R82). -/
  | bi (l : Nat)
  /-- All outstanding-request entries are in use (R65). -/
  | oreq
  /-- A release waits for the acknowledgements of earlier messages (R68, R220). -/
  | release
  /-- A speculative chunk at a commit point (R154). -/
  | commitPoint
  /-- A speculative chunk with a deferred fault (R156). -/
  | deferred
  /-- A speculative chunk that overflowed (R152). -/
  | overflow
  /-- A chunk that leaves its loop (R144), with the target. -/
  | leave (target : Word) (link : Option (Reg × Word))
  /-- A chunk at its last `chk` (R136). -/
  | commit
  /-- `exit` waits for its copies (R437). -/
  | exit (o : ExitF)
  /-- A remote atomic awaits the answer of another device to a packet (R73); its operands and address. -/
  | remote (pid : Nat) (o : RatomF) (a : Nat)
  /-- An instruction that names a vector register which a `cpyv` still transfers (R431). -/
  | cpyv
  /-- Every core of the job has stopped, or the thread ended: nothing issues. -/
  | ended
  deriving DecidableEq, Repr

/-- Of a saved context (R240), the strip, the lanes behind `mvl` (R248), the slabs requested (R401), and what the thread waited for and where. (DESIGN CHOICE: log 35) -/
structure Saved where
  pc : Word
  strip : Strip
  lanes : Nat
  mreq : Nat
  wait : Wait
  deriving DecidableEq, Repr

/-- A core: its thread context, its resident handler context, its level-one state and its network interface. (DESIGN CHOICE: log 1, 2) (DEDUCED: log 59, 95) -/
structure Core where
  /-- Scalar registers `x1`–`x63`; entry 0 is never read (R307). -/
  x : Vector Word 64 := Vector.replicate 64 0
  /-- The handler's own `x0`–`x15` (R226). -/
  hx : Vector Word 16 := Vector.replicate 16 0
  v : Vector (BitVec 4096) 64 := Vector.replicate 64 0
  /-- Predicates; entry 0 is never read (R307). -/
  p : Vector (BitVec 512) 16 := Vector.replicate 16 0
  t : Vector (BitVec 131072) 4 := Vector.replicate 4 0
  /-- Tokens of R196: pend, err and lines. -/
  q : Vector Word 8 := Vector.replicate 8 0
  pc : Word := 0
  /-- Handler mode (R226). -/
  handler : Bool := false
  vl : Nat := 0
  vtype : Word := 0x30
  /-- The lane count ℓ of R368. -/
  lanes : Nat := 64
  fflags : BitVec 5 := 0
  frm : Nat := 0
  tren : BitVec 5 := 0
  srseed : Word := 0
  vcm : BitVec 512 := 0
  /-- The vector memory instruction that waits has begun: to go on with it is no replay (R237). The issue of another instruction clears it. The
  model's own field. -/
  vcmOn : Bool := false
  /-- `mgrant`: slabs requested and slabs held (R401). -/
  mreq : Nat := 0
  mslabs : BitVec 8 := 0
  tshape : TShape := {}
  /-- `tprog` (R239) and the staging buffer. -/
  tpAct : Bool := false
  tpProg : Nat := 0
  staging : BitVec 32768 := 0
  strip : Strip := {}
  /-- Fork levels, innermost first (R134). -/
  levels : List Level := []
  /-- Pending induction declarations (R138): register and stride. -/
  inds : List (Reg × Word) := []
  /-- Open regions, innermost first (R253). -/
  regions : List Region := []
  logTail : Nat := 0
  logOvf : Bool := false
  /-- `rgnlog` (R255). -/
  logBase : Nat := 0
  logEn : Bool := false
  rb : Vector Rb 4 := Vector.replicate 4 {}
  rbovf : Word := 0
  cpmask : BitVec 32 := 0xFFFFFFFF#32
  tvec : Word := 0
  tcause : Word := 0
  tepc : Word := 0
  tval : Word := 0
  tmask : BitVec 512 := 0
  tstk : BitVec 8 := 0
  ctxbase : Word := 0
  utvec : Word := 0
  ucause : Word := 0
  uepc : Word := 0
  uval : Word := 0
  /-- Retired lanes (R247). -/
  lret : BitVec 64 := 0
  scalarFails : Nat := 0
  withdrawn : Bool := false
  /-- Retention sleep (R161). -/
  asleep : Bool := false
  wait : Wait := .none
  /-- Interrupts held for this core (R235). -/
  held : List IntrKind := []
  /-- An interrupt whose context save waits for the host: the thread has stopped (R124). -/
  stopping : Option IntrKind := none
  /-- Scratchpad blocks that the present instruction has logged: a store logs each block once (R256). -/
  logged : List Nat := []
  /-- Bytes of poisoned lines that the present instruction has written (R251). -/
  covered : Table (BitVec 128) := []
  l1 : Table Line := []
  /-- Partial lines of commutative contributions (R191): line, format and elements. -/
  partials : Table (Nat × BitVec 1024) := []
  tlb : List Leaf := []
  /-- The level-one instruction cache: what a fetch of each line saw (R222). -/
  icache : Table (List Byte) := []
  sbuf : List SbEntry := []
  rfilter : List Nat := []
  contribs : List Contrib := []
  /-- Outstanding-request entries in use (R65); true: the response is discarded (R66). -/
  oreqs : List (Nat × Bool) := []
  issued : Vector Nat 4 := Vector.replicate 4 0
  completed : Vector Nat 4 := Vector.replicate 4 0
  /-- Next message sequence value per (core, buffer) (R198). -/
  mseq : Table Nat := []
  /-- Messages received but not appended when the handler was entered (R124): the spill buffer's packets. -/
  spill : List Nat := []
  /-- An interrupt has saved the context in the context area (R124 step 4); this is what the handler cannot restore. -/
  saved : Option Saved := none
  deriving DecidableEq, Repr

/-! ### Rings, threads and chunks -/

/-- The state forwarded from chunk to chunk (R137). -/
structure Live where
  x : Vector Word 64
  p : Vector (BitVec 512) 16
  vl : Nat
  vtype : Word
  frm : Nat
  tshape : TShape
  deriving DecidableEq, Repr

/-- A live chunk (R131): index, slot, position, what it started from and what it has exposed. (DEDUCED: log 48) -/
structure Chunk where
  idx : Nat
  num : BitVec 32
  slot : Fin 16
  /-- Iterations of the chunk already ended (R136). -/
  done : Nat := 0
  /-- Call depth (R341). -/
  depth : Nat := 0
  /-- The live-ins the chunk started with (R140). -/
  kept : Live
  /-- The live-ins are actual or verified (R139). -/
  actual : Bool
  /-- They are live-outs that have arrived, and no prediction (R138). -/
  arrived : Bool := false
  /-- Exposed and written scalar and predicate registers (R139). -/
  exX : BitVec 64 := 0
  wrX : BitVec 64 := 0
  exP : BitVec 16 := 0
  wrP : BitVec 16 := 0
  /-- The same of `vl`, `vtype`, `frm` and `tshape`, in this order. -/
  exS : BitVec 4 := 0
  wrS : BitVec 4 := 0
  /-- A trap of the instruction it stopped at has been deferred (R156, R228). -/
  deferred : Bool := false
  /-- It waits at its last `chk`. -/
  finished : Bool := false
  /-- The chunk has not yet lost its repairability (R158), and how often it was restarted after an error. -/
  repairable : Bool := true
  restarts : Nat := 0
  /-- A pending write of `specst.ns` by `nospec` (R417). -/
  ns : Bool := false
  /-- Its core must restart it from its first iteration (R149). -/
  restart : Bool := false
  /-- Instructions executed since it started (R260). -/
  count : Nat := 0
  deriving DecidableEq, Repr

/-- The forked loop a ring runs (R132): effective width, first chunk number, slot of the `fork`. -/
structure Forked where
  f : Word
  e : Word
  n : Nat
  k : Nat
  w : Nat
  c0 : BitVec 32
  h : Fin 16
  m : Nat
  snap : Live
  inds : List (Reg × Word)
  under : List Level
  seed : Word
  deriving DecidableEq, Repr

/-- A store broadcast on the forwarding path (R146): the next slot it visits, the words it still concerns. -/
structure Bcast where
  from_ : Nat
  next : Nat
  line : Nat
  off : Nat
  data : List Byte
  scratch : Bool
  deriving DecidableEq, Repr

/-- A thread of a stage (R116). -/
structure Thread where
  job : Nat
  record : Nat
  ordinal : Nat
  key : Nat
  /-- Instructions committed (R260). -/
  pos : Nat := 0
  /-- `ssync` executions at scopes 3, 4 and 5 (R216). -/
  syncs : Vector Nat 3 := Vector.replicate 3 0
  /-- An `ssync` that has counted its arrival and not completed (R357): scope, episode and address. -/
  arrived : Option (Nat × Nat × Word) := none
  deriving DecidableEq, Repr

/-- What parking a ring saved (R124, R125): the thread, the sixteen cores and the ring's scratchpad bytes. (DESIGN CHOICE: log 35) -/
structure Parked where
  thread : Thread
  cores : Table Core
  pads : List Host.Cell
  /-- Order of parking (R120). -/
  since : Nat
  forked : Option Forked
  chunks : List Chunk
  tflags : BitVec 5
  chunkCtr : BitVec 32
  head : Fin 16
  ns : Bool
  nsq : Nat
  nov : Nat
  smev : Word
  smevAt : Word
  /-- An event has set v of the parked `smev` with ie 1: its interrupt comes when the thread resumes (R224). -/
  smevIntr : Bool := false
  liveOuts : List (Nat × Live)
  /-- The learned-stride entry of the forked loop (R160). -/
  strides : Option (Word × Vector Word 64) := none
  deriving DecidableEq, Repr

/-- A ring: its thread, its chunks and the forwarding path. (DESIGN CHOICE: log 1) -/
structure Ring where
  /-- Resident key (R123). -/
  key : Nat := 0
  thread : Option Thread := none
  parked : Option Parked := none
  /-- Reserved for a ready stage, or given to the stage that parked its thread (R120, R124): job and record. -/
  reserved : Option (Nat × Nat) := none
  /-- The ring has a withdrawn core (R245). -/
  withdrawn : Bool := false
  /-- Slot of the oldest chunk, or of the thread's core (R159). -/
  head : Fin 16 := 0
  chunkCtr : BitVec 32 := 0
  forked : Option Forked := none
  /-- Live chunks, oldest first. -/
  chunks : List Chunk := []
  /-- The thread's flags while forked (R153). -/
  tflags : BitVec 5 := 0
  ns : Bool := false
  nsq : Nat := 0
  nov : Nat := 0
  /-- Learned strides by fork address, newest first (R138). -/
  strides : List (Word × Vector Word 64) := []
  /-- `smev` (R224), and scope-miss events on their way to the ring. -/
  smev : Word := 0
  /-- `smev` as it stood when v was set (R230). -/
  smevAt : Word := 0
  misses : List RelTag := []
  bcasts : List Bcast := []
  /-- Live-outs on their way: index of the sending chunk and its values (R139). -/
  liveOuts : List (Nat × Live) := []
  deriving DecidableEq, Repr

/-! ### Memory system -/

/-- Directory states (R183). -/
inductive DSt where
  | u
  | p (s : List Nat)
  | c (g : BitVec 64)
  | x (o : Nat)
  deriving DecidableEq, Repr

/-- Requests to a home (R183). -/
inductive ReqKind where
  | getS | getX | upg | putS | putX
  deriving DecidableEq, Repr

/-- A home's entry for one line: directory state, the request in progress and those waiting (R184), lazy-release records
(R188), commutative contributors and partials held at home (R191), release tag (R223). -/
structure Dir where
  st : DSt := .u
  busy : Option (Nat × ReqKind) := none
  queue : List (Nat × ReqKind) := []
  records : List Nat := []
  contributors : DSt := .u
  held : Table (BitVec 1024) := []
  cfmt : Nat := 0
  /-- The key of the commutative page. -/
  ckey : Nat := 0
  tag : Option RelTag := none
  deriving DecidableEq, Repr

/-- Messages of the coherence protocol in flight (R184). -/
inductive MsgKind where
  | data (acks : Nat) (grant : Bool)
  | inval
  | fwd (x : Bool)
  | ack
  | drain
  | drainAck
  deriving DecidableEq, Repr

/-- A message about a line to core `to_`, on behalf of core `for_`. -/
structure Msg where
  kind : MsgKind
  to_ : Nat
  for_ : Nat
  line : Nat
  deriving DecidableEq, Repr

/-- A requester's progress: acknowledgements awaited and received, data received (R184). -/
structure Pend where
  core : Nat
  line : Nat
  own : Bool
  got : Bool := false
  need : Option Nat := none
  have_ : Nat := 0
  deriving DecidableEq, Repr

/-- MESI state of a host-line cache half (R78). -/
inductive Mesi where
  | i | s | e | m
  deriving DecidableEq, Repr

/-- A half: its state and whether a request awaits GO (true: for ownership). -/
structure Half where
  st : Mesi := .i
  req : Option Bool := none
  deriving DecidableEq, Repr

/-- A host filter entry: its state, the outstanding back-invalidate (true: BISnpInv), and the host requests held behind
it (R83). (DESIGN CHOICE: log 82) -/
structure Filt where
  st : FilterSt := .n
  bi : Option Bool := none
  held : List Instr := []
  deriving DecidableEq, Repr

/-- Bytes of one half of a line that have been written back and wait for the host to let go (R79, R82), the words among
them that were filled (R251), and the tag of a release store among them (R223). -/
structure Back where
  ln : Nat
  half : Nat
  key : Nat
  mask : BitVec 128
  full : BitVec 16
  data : BitVec 1024
  rel : Option RelTag := none
  deriving DecidableEq, Repr

/-- A fault record queue (R179). -/
structure Frq where
  base : Nat := 0
  head : Nat := 0
  tail : Nat := 0
  icore : Nat := 0
  ie : Bool := false
  en : Bool := false
  deriving DecidableEq, Repr

/-- A copy queued at a hart (R194, R430, R431): kicking core and channel, operands, key, pc. -/
structure Copy where
  core : Nat
  ch : Nat
  dst : Word
  src : Word
  len : Nat
  fold : Nat := 0
  op : Nat := 0
  cnt : Word := 0
  sand : Bool := false
  /-- `cpyv`: the first register, their number and whether it moves to memory; none for `cpy`. -/
  regs : Option (Nat × Nat × Bool) := none
  vals : List (BitVec 4096) := []
  key : Nat
  pc : Word
  /-- The window of a sand copy (R429). -/
  sdl : Nat := 1
  /-- The packets of a sand copy have been sent; those that have not been answered, and the blocks they have found missing. -/
  sent : Bool := false
  flying : Nat := 0
  gone : List Nat := []
  /-- Of a get, the pieces of 256 bytes that have come; of a put, that the last write has been answered; the access that was
  denied, by acc and address. -/
  got : Table (List Byte) := []
  put : Bool := false
  deny : Option (Nat × Nat) := none
  /-- Where the hart stands: blocks lost on the way (once known), units done, a reduction's running value, elements or
  bytes present, and the strips still to come. -/
  lost : Option (List Nat) := none
  pos : Nat := 0
  accum : Nat := 0
  present : Nat := 0
  strips : List Nat := []
  /-- The thread that kicked a `cpyv` has ended: nothing takes what it moves to registers. -/
  orphan : Bool := false
  /-- The transfers are done and the completion is due. -/
  performed : Bool := false
  /-- The launch that kicked it: job and record (R98). -/
  launch : Option (Nat × Nat) := none
  deriving DecidableEq, Repr

/-- A prefetch in progress (R196). -/
structure Pref where
  core : Nat
  q : Fin 8
  start : Word
  len : Word
  key : Nat
  deriving DecidableEq, Repr

/-! ### Fabric -/

/-- Where a packet stands: in the torus; refused for a failed check (R49) or for want of room (R53), its source holding a
copy; acknowledged or denied (R55), the answer on its way; in the spill buffer of a core whose handler runs (R124); waiting at
its source for an earlier packet to its line (R67), or for an outstanding-request entry (R65); sent on over UALink; from UALink and
still without all its payload (R71); or never to be answered, because a port has dropped its answer (R55). -/
inductive Phase where
  | fly | refused | held | acked | denied | spilled | queued | waiting | away | forming | lost
  deriving DecidableEq, Repr

/-- The answer to a packet: the kind of the packet that carries it, the blocks present, the bytes asked for. -/
structure Reply where
  kind : Nat
  mask : BitVec 64
  data : List Byte
  deriving DecidableEq, Repr

/-- A packet of R44: its head's fields, its payload, and where it stands; sand blocks are tracked by `arrived` and `gone`. -/
structure Pkt where
  pid : Nat
  src : Nat
  dst : Nat
  lane : Nat
  kind : Nat
  key : Nat
  seq : Nat
  score : Nat
  sdev : Nat
  dcore : Nat
  buf : Fin 4
  mseq : Nat
  tag : Word
  payload : List Byte
  sand : Bool
  sdl : Nat
  /-- Bytes and address of an access, its release, acquire and freshness flags and scope, its outstanding-request entry, and the
  operation of a remote atomic. -/
  size : Nat := 0
  addr : Nat := 0
  rel : Bool := false
  acq : Bool := false
  fresh : Bool := false
  sc : Nat := 0
  oreq : Nat := 0
  atom : Option AtomOp := none
  /-- Data that its head carries, and what its access has read, which the response brings. -/
  inl : List Byte := []
  result : List Byte := []
  /-- It is what a home asks of memory, and holds no entry (R42). -/
  leg : Bool := false
  /-- It has been refused for want of room: later messages of its stream wait behind it (R53). -/
  again : Bool := false
  /-- Blocks whose flits have been put at its source. -/
  came : BitVec 64 := 0
  /-- The packet that this one answers. -/
  ref : Option Nat := none
  /-- How this one has been answered. -/
  reply : Option Reply := none
  /-- To another device: the device and the UALink port. -/
  away : Option (Nat × Nat) := none
  /-- From another device: the UALink port and the number of the transaction there. -/
  origin : Option (Nat × Nat) := none
  /-- Of a copy: the kicking core, the channel and the first block of the copy it carries. -/
  hart : Option (Nat × Nat × Nat) := none
  phase : Phase := .fly
  /-- The head is at the destination. -/
  head : Bool := false
  /-- The head of a sand packet has been accepted, and its window is open (R51). -/
  open_ : Bool := false
  arrived : BitVec 64 := 0
  gone : BitVec 64 := 0
  pc : Word := 0
  /-- The launch that sent it: job and record (R98). -/
  launch : Option (Nat × Nat) := none
  deriving DecidableEq, Repr

/-- A flit in the torus (R43): the node it has reached and the port through which it comes there (none: it waits at its source),
its plane, its packet and block. -/
structure Flit where
  at_ : Nat
  inp : Option Nat := none
  plane : Nat := 0
  src : Nat
  dst : Nat
  age : Nat
  cls : Nat
  key : Nat
  dl : Nat
  lane : Nat
  seq : Nat
  pid : Nat
  block : Nat
  deriving DecidableEq, Repr

/-- A transaction that waits for a UALink port (R71): the other device, the job key, the number of the packet or of the transaction
it answers, and what it carries. -/
structure UalTx where
  dev : Nat
  key : Nat
  id : Nat
  /-- It asks, and is not an answer. -/
  own : Bool
  body : UalBody
  deriving DecidableEq, Repr

/-- A UALink port (R35–R37): keys installed and pending (their material), counters, halt. -/
structure Ulk where
  tx : Option Nat := none
  txPend : Option Nat := none
  rx : Option Nat := none
  rxPend : Option Nat := none
  txctr : Nat := 0
  rxlast : Option Nat := none
  halted : Bool := false
  warned : Bool := false
  queue : List UalTx := []
  deriving DecidableEq, Repr

/-! ### Module -/

/-- A network clock domain (R22, R23). (DESIGN CHOICE: log 3) -/
structure Domain where
  ctl : Word := 0x0707C020
  cur : Nat := 4
  moves : Nat := 0
  target : Option Nat := none
  quiet : Nat := 0
  deriving DecidableEq, Repr

/-- The power controller (R25, R26). -/
structure Power where
  thr : Nat := 0
  quiet : Nat := 0
  cap : Nat := 7
  modW : Nat := 0
  pkgW : Nat := 0
  hot : Bool := false
  modLim : Bool := false
  pkgLim : Bool := false
  temp : Int := 0
  deriving DecidableEq, Repr

/-- An error log entry (R101). -/
structure Elog where
  time : Nat
  key : Nat
  core : Nat
  code : Nat
  src : Nat
  sev : Nat
  addr : Nat
  detail : List Word
  deriving DecidableEq, Repr

/-- An SPDM session on a link (R90). -/
structure Spdm where
  version : Bool := false
  caps : Bool := false
  algs : Bool := false
  handshake : Bool := false
  session : Bool := false
  /-- The key-encryption key derived in the session (R87), by name. -/
  kek : Nat := 0
  deriving DecidableEq, Repr

/-- The module outside cores and memory. (DESIGN CHOICE: log 1, 3, 12) -/
structure Dev where
  trip : Bool := false
  clocksOn : Bool := true
  /-- Halted under pol 2 until power is cycled (R32). -/
  halted : Bool := false
  powered : Bool := true
  alert : Bool := false
  domains : Vector Domain 32 := Vector.replicate 32 {}
  power : Power := {}
  bstep : Nat := 0
  bootFail : Option (Nat × Nat) := none
  /-- Valid key slots and the material in each (R29). -/
  keys : Table Nat := []
  almLock : Bool := false
  almEn : BitVec 5 := 0x1F#5
  almPol : Nat := 0
  almCount : Nat := 0
  almSeen : BitVec 5 := 0
  ulk : Vector Ulk 24 := Vector.replicate 24 {}
  /-- Ports bifurcated now, and from the next cold reset (R38). -/
  bifur : BitVec 4 := 0
  bifurNext : BitVec 4 := 0
  /-- How each link trained; none: untrained. -/
  links : Vector (Option TrainKind) 8 := Vector.replicate 8 none
  ide : Vector (BitVec 4) 8 := Vector.replicate 8 0
  tapIr : Nat := 0
  tapDr : BitVec 64 := 0
  dbg : Bool := false
  /-- Invasive debug has been asked for and waits for the jobs to close (R40). -/
  dbgPend : Bool := false
  attReq : Bool := false
  staged : List (Nat × Nat) := []
  meas : List Nat := []
  elogHead : Nat := 0
  elogTail : Nat := 0
  elogLost : Nat := 0
  elogIe : Bool := false
  mbxIe : Bool := false
  elog : Table Elog := []
  mbxOvr : Bool := false
  mbxRes : Nat := 0
  mbxBusy : Bool := false
  mbxCmd : Nat := 0
  mbxIn : Vector Word 32 := Vector.replicate 32 0
  mbxOut : Vector Word 32 := Vector.replicate 32 0
  /-- Link the go came from, and the result that the running command will post. -/
  mbxLink : Nat := 0
  mbxPost : Option (Nat × List Word) := none
  spdm : Vector Spdm 8 := Vector.replicate 8 {}
  /-- MSI-X table words of each link's function, 512 a link, and its pending bits (R75, R84). -/
  msixTab : Table Word := []
  msixPba : Vector (BitVec 256) 8 := Vector.replicate 8 0
  deriving DecidableEq, Repr

/-- The fabric: membership tables, counters, routes, packets and flits. (DESIGN CHOICE: log 1) -/
structure Fab where
  lmtN : Table Word := []
  lmtP : Table Word := []
  dropKeyN : Table Word := []
  dropSandN : Table Word := []
  sandLateN : Table Word := []
  resendN : Table Word := []
  dropKeyP : Table Word := []
  dropSandP : Table Word := []
  devid : Nat := 0
  devidAct : Nat := 0
  ord : Bool := false
  ordAct : Bool := false
  drt : Table Word := []
  /-- Cycles each node has found no free port, and its starve signal (R48). -/
  blocked : Table Nat := []
  starve : BitVec 256 := 0
  /-- Next flit sequence number of each (src, dst, lane) stream (R43). -/
  seqs : Table Nat := []
  pkts : List Pkt := []
  flits : List Flit := []
  nextPid : Nat := 0
  deriving DecidableEq, Repr

/-! ### Jobs and records -/

/-- States of a job slot (R95). -/
inductive JobSt where
  | closed | open_ | closing
  deriving DecidableEq, Repr

/-- Record states (R107). -/
inductive RecSt where
  | idle | waiting | ready | running | completing
  deriving DecidableEq, Repr

/-- The snapshot of a record (R93). -/
structure Snap where
  ctl : Nat
  dep : Nat
  entry : Nat
  cmplAddr : Nat
  cmplTag : Nat
  succ : List Nat
  qbind : List Nat
  node : List Nat
  deriving DecidableEq, Repr

/-- A capture or replay latched by a launch (R102): mode, buffer, bytes used. (DEDUCED: log 46) -/
structure Capture where
  mode : Nat := 0
  base : Nat := 0
  size : Nat := 0
  used : Nat := 0
  /-- Under replay, the offsets of records already consumed. -/
  taken : List Nat := []
  stopped : Bool := false
  deriving DecidableEq, Repr

/-- A record of an open job (R107, R108), with its launch. (DEDUCED: log 43) -/
structure Rec where
  st : RecSt := .idle
  gen : Nat := 0
  wait : Nat := 0
  held : Nat := 0
  snap : Option Snap := none
  status : Nat := 0
  /-- Threads started so far and, for hasin 0, their number n (R116). -/
  started : Nat := 0
  total : Nat := 0
  /-- Order of acceptance and of the last grant (R120). -/
  accepted : Nat := 0
  lastGrant : Nat := 0
  /-- Microseconds the stage has wanted rings, and, while it holds a reservation, has held it (R120, R122); the effective priority that the last
  pass of R120 fixed. -/
  want : Nat := 0
  eprio : Nat := 0
  resv : Option Nat := none
  /-- Loop nodes: iterations done, whether its body is still to be armed, whether its body launch runs, and how that
  ended (R112). -/
  iter : Nat := 0
  armBody : Bool := false
  bodyOut : Bool := false
  bodyStatus : Option Nat := none
  /-- The queues that count this launch among their producers (R115). -/
  bound : List Nat := []
  /-- The word a node read, which selects its successors (R104). -/
  word : Nat := 0
  cap : Capture := {}
  events : Nat := 0
  /-- `ssync` episodes completed, by scope and unit (R216). -/
  episodes : Table Nat := []
  deriving DecidableEq, Repr

/-- A queued doorbell (R96): the record index, the link it came through, and the lines that hold a CXL.mem write received
on that link before it (R97); `tied` is set when another event reached its record while it was the next to be served
(R108). -/
structure Bell where
  idx : Nat
  link : Nat := 0
  lines : List Nat := []
  tied : Bool := false
  deriving DecidableEq, Repr

/-- A job slot: its table entry (R88), doorbell queue (R96), counters (R95) and capture controls (R102, R103). -/
structure Job where
  st : JobSt := .closed
  key : Nat := 0
  link : Nat := 0
  root : Nat := 0
  poolBase : Nat := 0
  poolCount : Nat := 0
  ports : BitVec 24 := 0
  bells : List Bell := []
  acc : Nat := 0
  rej : Nat := 0
  capMode : Nat := 0
  capBase : Nat := 0
  capSize : Nat := 0
  capUsed : Nat := 0
  capMism : Bool := false
  capOvf : Bool := false
  capAct : Bool := false
  /-- The record whose launch was last latched with capture or replay: CAP_STAT reports it (R103). -/
  capRec : Nat := 0
  recs : Table Rec := []
  deriving DecidableEq, Repr

/-! ### What leaves the module -/

/-- A message to the outside world. -/
inductive Output where
  /-- CXL.cache: requests of the device (R79) and snoop responses, by name and half; data where it carries any. -/
  | rdShared (half : Nat) | rdOwn (half : Nat) | rdOwnNoData (half : Nat)
  | dirtyEvict (half : Nat) (data : BitVec 512) | cleanEvictNoData (half : Nat)
  /-- Requests that R75 lists and no row of R79 sends. -/
  | rdCurr (half : Nat) | cleanEvict (half : Nat) (data : BitVec 512)
  | rspSFwdM (half : Nat) (data : BitVec 512) | rspSHitSE (half : Nat)
  | rspIFwdM (half : Nat) (data : BitVec 512) | rspIHitSE (half : Nat)
  | rspVFwdV (half : Nat) (data : BitVec 512) | rspVHitV (half : Nat) | rspIHitI (half : Nat)
  /-- CXL.mem (R82). -/
  | memData (l : Nat) (data : BitVec 512) | memCmp (l : Nat) | biSnpData (l : Nat) | biSnpInv (l : Nat)
  /-- A posted CXL.io write (R98). -/
  | posted (link : Nat) (addr : Nat) (w : Word)
  | msix (link : Nat) (vec : Nat)
  | readData (w : Word)
  | unsupported
  | spdm (link : Nat) (req : Nat) (body : List Byte)
  | pldm (body : List Int)
  /-- The report of a boot that stopped: step and cause (R28). -/
  | bootStopped (step cause : Nat)
  | ualink (port : Nat) (ctr : Nat) (uid : Nat) (t : UalTx)
  | tap (bits : BitVec 64)
  | ideKm (link : Nat) (stream : Nat)
  deriving DecidableEq, Repr

/-! ### The machine -/

/-- The state of the module. (DESIGN CHOICE: log 4, 34) -/
structure State where
  /-- What moves next; when it is empty, a core that can issue does. The model's own field. -/
  turns : List Turn
  /-- The core whose instruction or access is being performed: the model's own field. -/
  cur : Nat
  /-- Draws of free values so far: the model's own field. -/
  free : Nat
  cycle : Nat
  cores : Table Core
  rings : Table Ring
  /-- Physical memory and, under their window keys, the scratchpads: one canonical list (see `Memory.wf`). -/
  mem : List Host.Cell
  /-- Key material under which a line was last written (R174), where it has been written. -/
  lineKeys : Table Nat
  /-- Poisoned lines and their written words (R251). -/
  poison : Table (BitVec 16)
  /-- Home and class under which a cached line is known (R174). -/
  lineHomes : Table Nat
  /-- Lines of memory that homes hold as several independent lines, and those of them written since (R174). -/
  splits : Table (List Nat)
  /-- Write-backs that wait for the host. -/
  backs : List Back
  dirs : Table Dir
  msgs : List Msg
  pends : List Pend
  halves : Table Half
  filter : Table Filt
  /-- Second-level TLBs by cluster (R175). -/
  tlb2 : Table (List Leaf)
  hmask : Table Word
  frq : Table Frq
  tlbiVa : Word
  tlbiGo : Bool
  tlbiOp : Nat
  tlbiKey : Nat
  /-- The translations that the present command has removed. -/
  tlbiGone : List Leaf
  copies : List Copy
  prefs : List Pref
  dev : Dev
  fab : Fab
  jobs : Table Job
  /-- Order of acceptance of launches and of grants (R120). -/
  order : Nat
  /-- Buffers that a capture has filled (R103). -/
  ovfBufs : List Nat
  /-- Reports of a record's state and wait that are still to be written to memory (R107): job and record. -/
  reports : List (Nat × Nat)
  /-- Page table root of firmware's own table (R168). -/
  fwRoot : Nat
  outs : List Output
  deriving DecidableEq, Repr

/-- Memory in canonical form: addresses strictly rising and no byte equal to what an unlisted address reads as, 0. (DESIGN CHOICE: log 8) -/
def Memory.wf : List Host.Cell → Bool
  | [] => true
  | [c] => c.2 != 0
  | c :: d :: rest => c.2 != 0 && c.1 < d.1 && Memory.wf (d :: rest)

/-- The module right after a cold reset (R27): every field at its reset value, memory cleared, no job open, and nothing
yet booted. (DESIGN CHOICE: log 1, 2, 3, 8) -/
def State.reset : State :=
  { turns := [], cur := 0, free := 0, cycle := 0, cores := [], rings := [], mem := [], lineKeys := [], poison := [],
    lineHomes := [], splits := [], backs := [], dirs := [], msgs := [], pends := [], halves := [], filter := [], tlb2 := [], hmask := [], frq := [],
    tlbiVa := 0, tlbiGo := false, tlbiOp := 0, tlbiKey := 0, tlbiGone := [], copies := [], prefs := [], dev := {}, fab := {},
    jobs := [], order := 0, ovfBufs := [], reports := [], fwRoot := 0, outs := [] }

end Sys2Proof.Machine
end

