-- ==== Sys2Proof/Machine/Table.lean ====
section
/-! DEFINITION. Sparse tables, the canonical byte memory, and fields of words. -/

namespace Sys2Proof.Machine

open Sys2Proof

/-- The entry of a key, if there is one. -/
def Table.get? {α : Type} : Table α → Nat → Option α
  | [], _ => none
  | (j, v) :: t, k => if j = k then some v else Table.get? t k

/-- The entry of a key, or a default. -/
def Table.get {α : Type} (t : Table α) (k : Nat) (dflt : α) : α := (Table.get? t k).getD dflt

/-- Set the entry of a key, keeping keys rising. -/
def Table.put {α : Type} : Table α → Nat → α → Table α
  | [], k, v => [(k, v)]
  | (j, u) :: t, k, v =>
      if k < j then (k, v) :: (j, u) :: t else if j = k then (k, v) :: t else (j, u) :: Table.put t k v

/-- Remove the entry of a key. -/
def Table.erase {α : Type} (t : Table α) (k : Nat) : Table α := t.filter (fun e => e.1 != k)

/-! ### Bytes of memory -/

/-- The byte at an address; an unlisted address reads as 0. (DESIGN CHOICE: log 8) -/
def Memory.read : List Host.Cell → Nat → Byte
  | [], _ => 0
  | (b, v) :: m, a => if b = a then v else if a < b then 0 else Memory.read m a

/-- Write a byte, keeping the canonical form: writing 0 removes the entry. -/
def Memory.write : List Host.Cell → Nat → Byte → List Host.Cell
  | [], a, v => if v = 0 then [] else [(a, v)]
  | (b, u) :: m, a, v =>
      if a < b then (if v = 0 then (b, u) :: m else (a, v) :: (b, u) :: m)
      else if b = a then (if v = 0 then m else (a, v) :: m)
      else (b, u) :: Memory.write m a v

/-- The `n` bytes at an address, little-endian (R8). -/
def Memory.readN (m : List Host.Cell) (a : Nat) : Nat → Nat
  | 0 => 0
  | n + 1 => (Memory.read m a).toNat + 256 * Memory.readN m (a + 1) n

/-- Write the low `n` bytes of a number, little-endian. -/
def Memory.writeN (m : List Host.Cell) (a : Nat) : Nat → Nat → List Host.Cell
  | 0, _ => m
  | n + 1, v => Memory.writeN (Memory.write m a (BitVec.ofNat 8 v)) (a + 1) n (v / 256)

/-- The low `n` bytes of a number. -/
def bytesOf : Nat → Nat → List Byte
  | 0, _ => []
  | n + 1, v => BitVec.ofNat 8 v :: bytesOf n (v / 256)

/-- The number that bytes hold, little-endian. -/
def ofBytes : List Byte → Nat
  | [] => 0
  | b :: bs => b.toNat + 256 * ofBytes bs

/-! ### Fields -/

/-- Bits `lo + n - 1` to `lo` of a number. -/
def fld (v lo n : Nat) : Nat := v / 2 ^ lo % 2 ^ n

/-- A word from a number. -/
def wd (v : Nat) : Word := BitVec.ofNat 64 v

/-- A bit as a number. -/
def bitN (b : Bool) : Nat := b.toNat

/-- Replace bits `lo + n - 1` to `lo` of a bit vector. -/
def setFld {w : Nat} (v : BitVec w) (lo n x : Nat) : BitVec w :=
  (v &&& ~~~(BitVec.ofNat w ((2 ^ n - 1) * 2 ^ lo))) ||| BitVec.ofNat w (x % 2 ^ n * 2 ^ lo)

/-- Sign-extended 32-bit immediate as a 64-bit word. -/
def sext32 (i : BitVec 32) : Word := i.signExtend 64

/-- One bits of a bit vector, ascending. -/
def bitsSet {w : Nat} (v : BitVec w) : List Nat := (List.range w).filter (fun i => v.getLsbD i)

/-- Set one bit. -/
def setBit {w : Nat} (v : BitVec w) (i : Nat) (b : Bool) : BitVec w := setFld v i 1 (bitN b)

end Sys2Proof.Machine
end

