-- ==== Sys2Proof/Machine/Ops.lean ====
section
/-! DEFINITION. The named operations over registers, the error log and the fault record queue; taking a trap or an
interrupt, delivering it to the user handler, returning from it, and aborting a thread (R229–R235). -/

namespace Sys2Proof.Machine

open Sys2Proof

/-- What a meaning answers. -/
abbrev Out := Host.Outcome State Fault Refusal

/-! ### Reaching cores and rings -/

/-- Core `c`; one that has no entry is at its reset value. -/
def State.core (s : State) (c : Nat) : Core := Table.get s.cores c {}

/-- Replace core `c`. -/
def State.setCore (s : State) (c : Nat) (k : Core) : State := { s with cores := Table.put s.cores c k }

/-- The core that executes. -/
def State.me (s : State) : Core := s.core s.cur

/-- Replace the core that executes. -/
def State.setMe (s : State) (k : Core) : State := s.setCore s.cur k

/-- Ring `r`. -/
def State.ring (s : State) (r : Nat) : Ring := Table.get s.rings r {}

/-- Replace ring `r`. -/
def State.setRing (s : State) (r : Nat) (k : Ring) : State := { s with rings := Table.put s.rings r k }

/-- The ring of the core that executes (R2). -/
def State.myRing (s : State) : Ring := s.ring (s.cur / 16)

/-- The launch whose thread the executing core's ring runs. -/
def State.myLaunch (s : State) : Option (Nat × Nat) := s.myRing.thread.map (fun t => (t.job, t.record))

/-- Replace the ring of the core that executes. -/
def State.setMyRing (s : State) (k : Ring) : State := s.setRing (s.cur / 16) k

/-- Slot of a core (R2). -/
def slotOf (c : Nat) : Fin 16 := Fin.ofNat 16 c

/-- The core in a slot of a ring. -/
def coreAt (r : Nat) (slot : Fin 16) : Nat := 16 * r + slot.val

/-- Job slot `j`. -/
def State.job (s : State) (j : Nat) : Job := Table.get s.jobs j {}

/-- Replace job slot `j`. -/
def State.setJob (s : State) (j : Nat) (k : Job) : State := { s with jobs := Table.put s.jobs j k }

/-- Record `i` of job `j`. -/
def State.recd (s : State) (j i : Nat) : Rec := Table.get (s.job j).recs i {}

/-- Replace a record. -/
def State.setRec (s : State) (j i : Nat) (k : Rec) : State :=
  s.setJob j { s.job j with recs := Table.put (s.job j).recs i k }

/-- Let a turn be taken after those already due. -/
def State.andThen (s : State) (t : Turn) : State := { s with turns := s.turns ++ [t] }

/-- Let an event be taken after the turns already due. -/
def State.after (s : State) (i : Instr) : State := s.andThen (.event i)

/-- A message to the outside world. -/
def State.emit (s : State) (o : Output) : State := { s with outs := s.outs ++ [o] }

/-- Count one draw of a free value. (DESIGN CHOICE: log 9) -/
def State.drew (s : State) : State := { s with free := s.free + 1 }

/-- Let the messages refused at a core be sent again: there may be room now (R53). -/
def State.wakeHeld (s : State) (c : Nat) : State :=
  (s.fab.pkts.filter (fun p => p.dcore == c && p.phase == .held)).foldl (fun s p => s.after (.messageResend p.pid)) s

/-- Let the copy harts go on with the first copy of each channel. -/
def State.kickCopies (s : State) : State :=
  (((s.copies.filter (fun c => !c.performed)).map (fun c => (c.core, c.ch))).eraseDups).foldl
    (fun s e => s.after (.copyKick (Fin.ofNat 4096 e.1) (Fin.ofNat 4 e.2) false)) s

/-! ### Registers -/

/-- A scalar register: `x0` reads as zero (R307), and the handler has its own `x0`–`x15` (R226). -/
def Core.getX (c : Core) (r : Reg) : Word :=
  if r.val = 0 then 0
  else if h : c.handler = true ∧ r.val < 16 then c.hx.get ⟨r.val, h.2⟩
  else c.x.get r

/-- Write a scalar register; a write to `x0` is discarded (R307). -/
def Core.setX (c : Core) (r : Reg) (w : Word) : Core :=
  if r.val = 0 then c
  else if h : c.handler = true ∧ r.val < 16 then { c with hx := c.hx.set r.val w h.2 }
  else { c with x := c.x.set r.val w r.isLt }

/-- A predicate register: `p0` reads as all ones (R307). -/
def Core.getP (c : Core) (n : Fin 16) : BitVec 512 := if n.val = 0 then BitVec.allOnes 512 else c.p.get n

/-- Write a predicate register; a write to `p0` is discarded (R307). -/
def Core.setP (c : Core) (n : Fin 16) (b : BitVec 512) : Core :=
  if n.val = 0 then c else { c with p := c.p.set n.val b n.isLt }

/-- A vector register. -/
def Core.getV (c : Core) (r : Reg) : BitVec 4096 := c.v.get r

/-- Write a vector register. -/
def Core.setV (c : Core) (r : Reg) (b : BitVec 4096) : Core := { c with v := c.v.set r.val b r.isLt }

/-- A tile. -/
def Core.getT (c : Core) (n : Fin 4) : BitVec 131072 := c.t.get n

/-- Write a tile. -/
def Core.setT (c : Core) (n : Fin 4) (b : BitVec 131072) : Core := { c with t := c.t.set n.val b n.isLt }

/-- Read a scalar register of the executing core. -/
def State.x (s : State) (r : Reg) : Word := s.me.getX r

/-- Write a scalar register of the executing core. -/
def State.setX (s : State) (r : Reg) (w : Word) : State := s.setMe (s.me.setX r w)

/-- The program counter of the executing core. -/
def State.pc (s : State) : Word := s.me.pc

/-- Set the program counter of the executing core. -/
def State.setPc (s : State) (w : Word) : State := s.setMe { s.me with pc := w }

/-- Move past an instruction of `n` bytes. -/
def State.adv (s : State) (n : Nat) : State := s.setPc (s.pc + wd n)

/-- Whether the guard selects element `i` (R298). -/
def Core.active (c : Core) (gd : Guard) (i : Nat) : Bool := (c.getP gd.g).getLsbD i != gd.gn

/-- Whether a scalar instruction's guard holds (R322). -/
def State.active0 (s : State) (gd : Guard) : Bool := s.me.active gd 0

/-- Set sticky flags (R280). -/
def State.orFlags (s : State) (f : BitVec 5) : State := s.setMe { s.me with fflags := s.me.fflags ||| f }

/-- Element width in bits that `vtype.ew` selects (R367). -/
def Core.ew (c : Core) : Nat := 8 * 2 ^ fld c.vtype.toNat 4 2

/-- `vtype.fz` (R367). -/
def Core.fz (c : Core) : Bool := c.vtype.getLsbD 8

/-- `mvl` (R368). -/
def Core.mvl (c : Core) : Nat := c.lanes * 64 / c.ew

/-- Working lanes (R247, R248). -/
def Core.working (c : Core) : Nat := 64 - (bitsSet c.lret).length

/-- `mgrant.n` (R401). -/
def Core.slabs (c : Core) : Nat := (bitsSet c.mslabs).length

/-! ### Threads and chunks -/

/-- The key of the thread of the executing core's ring; firmware's key 0 in handler mode or with no thread (R54). -/
def State.key (s : State) : Nat :=
  if s.me.handler then 0 else
    match s.myRing.thread with
    | some t => t.key
    | none => 0

/-- The chunk that a core of a ring holds. -/
def Ring.chunkAt (r : Ring) (slot : Fin 16) : Option Chunk := r.chunks.find? (fun k => k.slot == slot)

/-- The chunk of the executing core. -/
def State.myChunk (s : State) : Option Chunk := s.myRing.chunkAt (slotOf s.cur)

/-- Replace the chunk in a slot. -/
def Ring.setChunk (r : Ring) (k : Chunk) : Ring :=
  { r with chunks := r.chunks.map (fun c => if c.slot == k.slot then k else c) }

/-- The executing core holds a chunk that is not the oldest (R143 "spec"). -/
def State.speculative (s : State) : Bool :=
  match s.myRing.chunks with
  | [] => false
  | k :: ks => k.slot != slotOf s.cur && ks.any (fun c => c.slot == slotOf s.cur)

/-- The executing core holds a chunk of a forked loop. -/
def State.inChunk (s : State) : Bool := s.myChunk.isSome

/-- The core waits: its pc still names the instruction. -/
def State.waitFor (s : State) (w : Wait) : State := s.setMe { s.me with wait := w }

/-- The oldest chunk stops being repairable at its first effect that cannot be undone (R158). -/
def State.unrepairable (s : State) : State :=
  match s.myChunk with
  | some k => s.setMyRing (s.myRing.setChunk { k with repairable := false })
  | none => s

/-- Depth of open regions (R253). (DEDUCED: log 77) -/
def Core.depth (c : Core) : Nat := c.regions.length

/-! ### Interrupt vectors and the error log -/

/-- A word of a link's MSI-X table; the mask bit of a vector's control word is set at reset, as PCIe has it. (PRESUMED: log 80) -/
def Dev.msixWord (d : Dev) (l i : Nat) : Word := Table.get d.msixTab (512 * l + i) (if i % 2 = 1 then 0x100000000 else 0)

/-- The vector of a link is masked. (PRESUMED: log 80) -/
def Dev.msixMasked (d : Dev) (l v : Nat) : Bool := (d.msixWord l (2 * v + 1)).getLsbD 32

/-- The pending bits of a link's vectors. -/
def Dev.pba (d : Dev) (l : Nat) : BitVec 256 := d.msixPba.toList.getD l 0

/-- Set the pending bit of a vector of a link. -/
def Dev.setPba (d : Dev) (l v : Nat) (b : Bool) : Dev :=
  { d with msixPba := d.msixPba.setIfInBounds l (setBit (d.pba l) v b) }

/-- Send an MSI-X vector on a link; a masked one is held pending. (PRESUMED: log 80) -/
def State.raise (s : State) (link v : Nat) : State :=
  if s.dev.msixMasked link v then { s with dev := s.dev.setPba link v true } else s.emit (.msix link v)

/-- Send a vector on every trained link. (PRESUMED: log 80) -/
def State.raiseAll (s : State) (v : Nat) : State :=
  ((List.range 8).filter (fun l => (s.dev.links.toList.getD l none).isSome)).foldl (fun s l => s.raise l v) s

/-- Write an error log entry and advance the tail, or count it lost (R100). (DESIGN CHOICE: log 17) (DEDUCED: log 79) -/
def State.log (s : State) (e : Elog) : State :=
  if (s.dev.elogTail + 1) % 1024 = s.dev.elogHead then
    { s with dev := { s.dev with elogLost := min (s.dev.elogLost + 1) 4294967295 } }
  else
    let s := { s with dev := { s.dev with
      elog := Table.put s.dev.elog s.dev.elogTail { e with time := s.cycle },
      elogTail := (s.dev.elogTail + 1) % 1024 } }
    if s.dev.elogIe then s.raiseAll 0 else s

/-- An entry of the error log (R101); `State.log` fills in the time. (DEDUCED: log 79) -/
def entry (key core code src sev addr : Nat) (detail : List Word) : Elog :=
  { time := 0, key := key, core := core, code := code, src := src, sev := sev, addr := addr, detail := detail }

/-! ### Fault records -/

/-- A faulting access part (R178): cause, access kind, address, table level, physical address, element. -/
structure AccFault where
  cause : Nat
  acc : Nat
  va : Nat
  lvl : Nat := 0
  pa : Nat := 0
  elem : Nat := 0
  /-- Met while a context was saved (R242). -/
  save : Bool := false
  deriving DecidableEq, Repr

/-- Write a fault record to a cluster's queue, then advance its tail and interrupt `icore` (R178, R179); an error on a table
read is the table walk's, and a save fault a store's (R242). -/
def State.record (s : State) (cluster key core : Nat) (pc : Word) (f : AccFault) : State :=
  let q := Table.get s.frq cluster {}
  if !q.en || 256 ≤ (q.tail + 512 - q.head) % 512 then s
  else
    let a := q.base + 32 * (q.tail % 256)
    let acc := if f.save then 1 else if f.cause = 11 then 8 else f.acc
    let w1 := key % 65536 * 2 ^ 48 + core % 4096 * 2 ^ 36 + acc % 16 * 2 ^ 32 + f.cause % 256 * 2 ^ 24 + f.elem % 65536
    let w3 := f.lvl % 8 * 2 ^ 61 + f.pa % 2 ^ 52
    let m := Memory.writeN s.mem a 8 f.va
    let m := Memory.writeN m (a + 8) 8 w1
    let m := Memory.writeN m (a + 16) 8 pc.toNat
    let m := Memory.writeN m (a + 24) 8 w3
    let s := { s with mem := m, frq := Table.put s.frq cluster { q with tail := (q.tail + 1) % 512 } }
    if q.ie then s.after (.interruptDelivery (Fin.ofNat 256 (q.icore / 16)) (.faultQueue (Fin.ofNat 32 cluster))) else s

/-- A record of the executing core's instruction. -/
def State.recordMe (s : State) (f : AccFault) : State := s.record (s.cur / 128) s.key s.cur s.pc f

/-- The trap code of a fault cause (R229): 0x03 for causes 1 to 7 and 11 of a fetch, else by cause. -/
def trapCode (acc cause : Nat) : Nat :=
  if acc = 4 ∧ (cause ≤ 7 ∨ cause = 11) then 0x03
  else match cause with
    | 1 | 2 | 3 | 4 | 5 => 0x04
    | 6 => 0x05
    | 7 => 0x06
    | 8 => 0x07
    | 9 => 0x09
    | 10 => 0x0A
    | _ => 0x0B

/-! ### Ending threads -/

/-- A core loses its thread: versions, buffers and waits are discarded, its slabs released (R124 cancellation, R403). (DESIGN CHOICE: log 117) -/
def Core.endThread (c : Core) : Core :=
  { c with
    handler := false, wait := .ended, held := [], stopping := none, levels := [], inds := [], regions := [], logTail := 0,
    logOvf := false, strip := {}, mreq := 0, mslabs := 0, sbuf := [], rfilter := [], contribs := [], spill := [],
    saved := none,
    l1 := (c.l1.filter (fun e => e.2.st == .n || e.2.sw == 0)).map
      (fun e => (e.1, { e.2 with st := .n, er := 0, sw := 0 })) }

/-- Apply a change to the cores of a ring that have an entry. -/
def State.eachCore (s : State) (r : Nat) (f : Core → Core) : State :=
  { s with cores := s.cores.map (fun e => if e.1 / 16 = r then (e.1, f e.2) else e) }

/-- Discard the spill buffers of a ring's cores (R124). (DEDUCED: log 39) -/
def State.dropSpill (s : State) (r : Nat) : State :=
  let pids := (s.cores.filter (fun e => e.1 / 16 == r)).flatMap (fun e => e.2.spill)
  let s := { s with fab := { s.fab with
    pkts := s.fab.pkts.map (fun p => if pids.contains p.pid then { p with phase := .acked } else p) } }
  pids.foldl (fun s pid => s.after (.acknowledgeReceipt pid)) s

/-- The thread that kicked the copies of a ring has ended (R431). -/
def State.orphanCopies (s : State) (r : Nat) : State :=
  if s.copies.any (fun c => c.core / 16 == r) then
    { s with copies := s.copies.map (fun c => if c.core / 16 = r then { c with orphan := true } else c) }
  else s

/-- End the thread that runs on a ring without saving it, and release the ring (R124, R120). (DEDUCED: log 54) -/
def State.endRing (s : State) (r : Nat) : State :=
  let s := (s.dropSpill r).orphanCopies r
  let g := s.ring r
  let s := s.setRing r
    { g with thread := none, forked := none, chunks := [], tflags := 0, bcasts := [], liveOuts := [], ns := false,
             smev := 0 }
  (s.eachCore r Core.endThread).after (.ringAssignment 0)

/-- A thread of a launch. -/
def Thread.of (t : Thread) (j i : Nat) : Bool := t.job == j && t.record == i

/-- The ring runs a thread of a launch. -/
def Ring.runs (g : Ring) (j i : Nat) : Bool :=
  match g.thread with
  | some t => t.of j i
  | none => false

/-- The ring holds a parked thread of a launch. -/
def Ring.parks (g : Ring) (j i : Nat) : Bool :=
  match g.parked with
  | some p => p.thread.of j i
  | none => false

/-- The rings that run a thread of a launch. -/
def State.ringsOf (s : State) (j i : Nat) : List Nat := (s.rings.filter (fun e => e.2.runs j i)).map (·.1)

/-- The rings that hold a parked thread of a launch. -/
def State.parkedOf (s : State) (j i : Nat) : List Nat := (s.rings.filter (fun e => e.2.parks j i)).map (·.1)

/-- A report of a record's state is still to be written (R107). -/
def State.reportDue (s : State) (j i : Nat) : State :=
  if s.reports.contains (j, i) then s else { s with reports := s.reports ++ [(j, i)] }

/-- End every thread of a launch, running or parked, and let it complete with a status (R110, R98); the transition is
reported before its completion (R107). -/
def State.endLaunch (s : State) (j i status : Nat) : State :=
  let s := (s.ringsOf j i).foldl State.endRing s
  let s := (s.parkedOf j i).foldl (fun s r =>
    (s.setRing r { s.ring r with parked := none }).after (.ringAssignment 0)) s
  let s := (s.setRec j i { s.recd j i with st := .completing, status := status }).reportDue j i
  s.after (.launchCompletion (Fin.ofNat 256 j) (Fin.ofNat 4096 i))

/-- Abort the thread of the executing core: its launch completes with status 2 (R110, R233). -/
def State.abort (s : State) : State :=
  match s.myRing.thread with
  | some t => s.endLaunch t.job t.record 2
  | none => s.setMe { s.me with handler := false, wait := .ended }

/-- Abort on a trap: error log code 0x0100 + code with `tepc` and `tval` (R233), under the key of the job (R101). -/
def State.abortTrap (s : State) (code : Nat) (epc val : Word) : State :=
  let key := match s.myRing.thread with
    | some t => t.key
    | none => 0
  (s.log (entry key s.cur (0x100 + code) 0 3 0 [epc, val])).abort

/-! ### Traps -/

/-- A trap or interrupt about to be taken (R228–R230). -/
structure Trap where
  code : Nat
  sub : Nat := 0
  frc : Nat := 0
  intr : Bool := false
  dfr : Bool := false
  val : Word := 0
  epc : Word := 0
  deriving DecidableEq, Repr

/-- `tcause` for a trap (R228). -/
def Trap.cause (t : Trap) (rgn : Bool) : Word :=
  wd (bitN t.intr * 2 ^ 63 + bitN t.dfr * 2 ^ 62 + bitN rgn * 2 ^ 61 + t.frc % 256 * 2 ^ 16 + t.sub % 256 * 2 ^ 8 +
    t.code % 256)

/-- Enter handler mode at `tvec` (R232). -/
def Core.enter (c : Core) (t : Trap) : Core :=
  { c with tcause := t.cause (0 < c.depth), tepc := t.epc, tval := t.val, handler := true, pc := c.tvec, wait := .none }

/-- The executing chunk has deferred a trap of the instruction it stands at, or no longer has. -/
def State.deferring (s : State) (b : Bool) : State :=
  match s.myChunk with
  | some k => if k.deferred = b then s else s.setMyRing (s.myRing.setChunk { k with deferred := b })
  | none => s

/-- A speculative chunk defers a trap: it stops at the instruction (R156). -/
def deferTrap (s : State) : State := (s.deferring true).waitFor .deferred

/-- A trap that recurs was deferred (R156, R228). -/
def State.wasDeferred (s : State) : Bool :=
  match s.myChunk with
  | some k => k.deferred
  | none => false

/-- Take a trap (R232): a speculative chunk defers it (R156), a trap in handler mode aborts the thread, and otherwise
the core enters its resident handler. -/
def takeTrap (t : Trap) (s : State) : State :=
  if s.speculative && !s.me.handler then deferTrap s
  else if s.me.handler then s.abortTrap t.code t.epc t.val
  else (s.deferring false).setMe (s.me.enter { t with dfr := t.dfr || s.wasDeferred })

/-- A trap of the instruction at pc, by code, sub-cause and `tval`. -/
def trapAt (code sub : Nat) (val : Word) (s : State) : State :=
  takeTrap { code := code, sub := sub, val := val, epc := s.pc } s

/-- Trap 0x01 with a sub-cause. -/
def illegal (sub : Nat) (s : State) : State := trapAt 0x01 sub 0 s

/-- Trap 0x02, privileged. -/
def privileged (s : State) : State := trapAt 0x02 0 0 s

/-- Trap 0x11, operand. -/
def operandTrap (s : State) : State := trapAt 0x11 0 0 s

/-- Trap 0x0F, irrevocable in region. (DEDUCED: log 77) -/
def irrevocable (s : State) : State := trapAt 0x0F 0 0 s

/-- Trap 0x08, alignment, with the address of the access (R230). -/
def alignTrap (va : Word) (s : State) : State := trapAt 0x08 0 va s

/-- The trap of a faulting access: its records first, then the trap of the lowest part (R178, R237). A speculative
chunk writes no record (R156). -/
def faultTrap (fs : List AccFault) (s : State) : State :=
  match fs with
  | [] => s
  | f :: _ =>
      let s' := if s.speculative && !s.me.handler then s else fs.foldl State.recordMe s
      takeTrap { code := trapCode f.acc f.cause, frc := f.cause, val := wd f.va, epc := s.pc } s'

/-- The end of an instruction that set flags (R231): `s'` is the state after it, pc advanced, and `mask` marks the
elements that set an enabled flag. With none it goes on; else it traps 0x0D with `tepc` the following instruction, or, in
a speculative chunk, has no effect and is executed again when the chunk is the oldest (R156). -/
def arithEnd (fl : BitVec 5) (mask : BitVec 512) (s s' : State) : State :=
  if fl &&& s.me.tren = 0 then s'
  else if s.speculative && !s.me.handler then deferTrap s
  else takeTrap { code := 0x0D, val := s.pc, epc := s'.pc } (s'.setMe { s'.me with tmask := mask })

/-- The sticky faults of R234: the trap that the next fence, release or `drain` takes, none when `tstk` is clear. -/
def stickyTrap (s : State) : Option Trap :=
  let k := s.me.tstk
  if k = 0 then none
  else if k.getLsbD 0 then some { code := 0x09, dfr := true, epc := s.pc }
  else some { code := 0x13, dfr := true, epc := s.pc, val := wd ((bitsSet (k.extractLsb' 4 4)).headD 0) }

/-- The code of an interrupt (R229). -/
def intrCode (k : IntrKind) : Nat :=
  match k with
  | .scopeMiss => 0x41
  | .faultQueue _ => 0x42
  | .sched | .park | .cancel => 0x40

/-- Interrupts held for a core are delivered again, before anything else (R361). -/
def State.redeliver (s : State) (c : Nat) : State :=
  let k := s.core c
  let ts := k.held.map (fun i => Turn.event (.interruptDelivery (Fin.ofNat 256 (c / 16)) i))
  { s.setCore c { k with held := [] } with turns := ts ++ s.turns }

/-- A core that is stopping goes on with its stop (R124): an interrupt's, or that of a park. -/
def State.stopAgain (s : State) (c : Nat) (i : IntrKind) : State :=
  s.after (if i = .park then .ringAssignment 0 else .interruptDelivery (Fin.ofNat 256 (c / 16)) i)

/-- A `cpyv` of the thread of a ring has not finished its transfers (R431). -/
def State.transferring (s : State) (r : Nat) : Bool :=
  s.copies.any (fun c => c.core / 16 == r && c.regs.isSome && !c.performed && !c.orphan)

/-- No core of a ring has a request outstanding, and every `cpyv` of its thread has finished its transfers (R124 step 3, R431). -/
def State.quiet (s : State) (r : Nat) : Bool :=
  s.cores.all (fun e => e.1 / 16 != r || e.2.oreqs.isEmpty) && !s.transferring r

/-- Nothing is outstanding any more on a ring: a thread that is stopping goes on with its stop, and a ring that a cancelled thread has left
is free (R124 step 3). -/
def State.settled (s : State) (r : Nat) : State :=
  let h := coreAt r (s.ring r).head
  if !s.quiet r then s
  else match (s.core h).stopping with
    | some i => s.stopAgain h i
    | none => if (s.ring r).thread.isNone then s.after (.ringAssignment 0) else s

/-- Take the sticky faults, or go on; only commit points ask for them, so a speculative chunk stalls here first (R154). -/
def sticky (s : State) (k : State → State) : State :=
  if s.speculative && !s.me.handler then s.waitFor .commitPoint
  else match stickyTrap s with
  | some t => takeTrap t s
  | none => k s

/-- Entry by an interrupt: `tepc` is the next instruction to execute (R230). (DEDUCED: log 37) -/
def Core.interrupted (c : Core) (code : Nat) (val : Word) : Core :=
  c.enter { code := code, intr := true, val := val, epc := c.pc }

/-- The core's handler was entered by an interrupt: appending has stopped (R124 step 5). -/
def Core.deaf (c : Core) : Bool := c.handler && c.tcause.getLsbD 63

/-- Delivery to the user handler, as the firmware handler performs it (R232): the thread aborts when there is none or
it already runs. (DESIGN CHOICE: log 40) -/
def deliverUser (s : State) : State :=
  let c := s.me
  if !c.handler then s
  else if c.utvec = 0 || c.ucause.getLsbD 60 then s.abortTrap (fld c.tcause.toNat 0 8) c.tepc c.tval
  else
    s.setMe { c with ucause := c.tcause ||| wd (2 ^ 60), uepc := c.tepc, uval := c.tval, handler := false, pc := c.utvec }

/-- Return from the handler: thread mode at `tepc` (R361). -/
def returnTrap (s : State) : State := s.setMe { s.me with handler := false, pc := s.me.tepc }

/-- After the handler: the spilled messages are checked again before anything else, in their order of arrival, and the messages refused
meanwhile are sent again (R124). -/
def State.rejoin (s : State) : State :=
  let ts := s.me.spill.map (fun pid => Turn.event (.packetArrival pid []))
  let s := s.setMe { s.me with spill := [] }
  { s with turns := ts ++ s.turns }.wakeHeld s.cur

/-- Return from the user handler (R361). -/
def returnUser (s : State) : State :=
  s.setMe { s.me with pc := s.me.uepc, ucause := s.me.ucause &&& ~~~(wd (2 ^ 60)) }

/-! ### Checks made before an instruction's effect -/

/-- A guarded scalar instruction of `len` bytes: with the guard false it only advances (R322). (DEDUCED: log 75) -/
def guarded (gd : Guard) (len : Nat) (s : State) (k : State → State) : State :=
  if s.active0 gd then k s else s.adv len

/-- Instructions of thread mode only: trap 0x02 in handler mode (R413, R419, R422, R434). -/
def threadOnly (s : State) (k : State → State) : State := if s.me.handler then privileged s else k s

/-- With a region open, trap 0x0F (R258); the handler is no part of a region (R226). -/
def noRegion (s : State) (k : State → State) : State :=
  if !s.me.handler && s.me.depth != 0 then irrevocable s else k s

/-- An operand check: trap 0x11 when it fails. -/
def operandOk (ok : Bool) (s : State) (k : State → State) : State := if ok then k s else operandTrap s

end Sys2Proof.Machine
end

