-- ==== Sys2Proof/Machine/Capture.lean ====
section
/-! DEFINITION. Capture and replay (R102, R103, R260, R261): the records a launch appends to its buffer and reads back. -/

namespace Sys2Proof.Machine

open Sys2Proof

/-- Instructions the thread of a ring has committed, with those of the chunk a core holds (R260 pos). (DEDUCED: log 47) -/
def Ring.posAt (g : Ring) (slot : Fin 16) : Nat :=
  (match g.thread with
   | some t => t.pos
   | none => 0) +
  (match g.chunkAt slot with
   | some k => k.count
   | none => 0)

/-- The body of a record, padded to 16 bytes, in 8-byte words. -/
def padBody (b : List Nat) : List Nat := if b.length % 2 = 1 then b ++ [0] else b

/-- Capture fills its buffer: it stops, and the launch runs on (R103). (DESIGN CHOICE: log 112) -/
def State.capFull (s : State) (j i : Nat) : State :=
  let r := s.recd j i
  let s := s.setRec j i { r with cap := { r.cap with stopped := true } }
  let k := s.job j
  let s := { s with ovfBufs := (r.cap.base :: s.ovfBufs).eraseDups }
  let s := s.setJob j (if k.capRec = i then { k with capOvf := true, capAct := false } else k)
  s.log (entry (s.job j).key 0xFFF 0x0070 1 (Config.severity 0x0070) 0 [])

/-- CAP_STAT.used reports the launch last latched (R103). -/
def State.capUsedIs (s : State) (j i n : Nat) : State :=
  let k := s.job j
  if k.capRec = i then s.setJob j { k with capUsed := n } else s

/-- Append a record for a launch under capture. (DEDUCED: log 47) -/
def State.capAppend (s : State) (j i kind core pos len : Nat) (body : List Nat) : State :=
  let r := s.recd j i
  if r.cap.mode ≠ 1 ∨ r.cap.stopped then s
  else
    let ws := (kind % 256 * 2 ^ 56 + core % 4096 * 2 ^ 44 + len % 2 ^ 32) :: pos :: padBody body
    let n := 8 * ws.length
    if r.cap.size < r.cap.used + n then s.capFull j i
    else
      let a := r.cap.base + r.cap.used
      let m := ws.zipIdx.foldl (fun m e => Memory.writeN m (a + 8 * e.2) 8 e.1) s.mem
      let s := { s with mem := m }
      let s := s.setRec j i { r with cap := { r.cap with used := r.cap.used + n } }
      s.capUsedIs j i (r.cap.used + n)

/-- The offsets of the records in a buffer: each header gives the next. -/
def capOffsets (m : List Host.Cell) (base size : Nat) : Nat → Nat → List Nat
  | 0, _ => []
  | fuel + 1, o =>
      if size < o + 16 then []
      else
        let w0 := Memory.readN m (base + o) 8
        if fld w0 56 8 = 0 then [] else o :: capOffsets m base size fuel (o + 16 + (fld w0 0 32 + 15) / 16 * 16)

/-- The next record for a core: offset, kind, position and body words. (DEDUCED: log 47) -/
def State.capNext (s : State) (r : Rec) (core : Nat) : Option (Nat × Nat × Nat × List Nat) :=
  ((capOffsets s.mem r.cap.base r.cap.size (r.cap.size / 16) 0).find? (fun o =>
      !r.cap.taken.contains o && fld (Memory.readN s.mem (r.cap.base + o) 8) 44 12 == core % 4096)).map (fun o =>
    let w0 := Memory.readN s.mem (r.cap.base + o) 8
    (o, fld w0 56 8, Memory.readN s.mem (r.cap.base + o + 8) 8,
      (List.range ((fld w0 0 32 + 7) / 8)).map (fun i => Memory.readN s.mem (r.cap.base + o + 16 + 8 * i) 8)))

/-- The scheduler choices still to come in a replay: the first words of their bodies. -/
def State.plannedIn (s : State) (c : Capture) : List Nat :=
  ((capOffsets s.mem c.base c.size (c.size / 16) 0).filter (fun o =>
    let w := Memory.readN s.mem (c.base + o) 8
    !c.taken.contains o && fld w 44 12 == 0xFFF && fld w 56 8 == 3)).map (fun o => Memory.readN s.mem (c.base + o + 16) 8)

/-- A replay mismatch: the launch ends with status 5 (R103). (DESIGN CHOICE: log 112) -/
def State.mismatch (s : State) (j i : Nat) : State :=
  let r := s.recd j i
  let s := s.setRec j i { r with cap := { r.cap with stopped := true } }
  let k := s.job j
  let s := if k.capRec = i then s.setJob j { k with capMism := true, capAct := false } else s
  (s.log (entry (s.job j).key 0xFFF 0x0071 1 (Config.severity 0x0071) 0 [])).endLaunch j i 5

/-- Take the next record of a replay, if its kind and position match. (DEDUCED: log 47) -/
def State.capTake (s : State) (j i kind core pos : Nat) : Option (List Nat) × State :=
  let r := s.recd j i
  if r.cap.mode ≠ 2 ∨ r.cap.stopped then (none, s)
  else match s.capNext r core with
    | some (o, k, p, body) =>
        if k = kind ∧ p = pos then
          let n := 16 + 8 * (padBody body).length
          let s := s.setRec j i { r with cap := { r.cap with used := r.cap.used + n, taken := o :: r.cap.taken } }
          (some body, s.capUsedIs j i (r.cap.used + n))
        else (none, s.mismatch j i)
    | none => (none, s.mismatch j i)

/-- An input of the thread of a core's ring, as capture records it or replay replaces it: the words of its body. -/
def State.input (s : State) (c kind len : Nat) (body : List Nat) : List Nat × State :=
  let g := s.ring (c / 16)
  match g.thread with
  | none => (body, s)
  | some t =>
      let pos := g.posAt (slotOf c)
      match (s.recd t.job t.record).cap.mode with
      | 1 => (body, s.capAppend t.job t.record kind c pos len body)
      | 2 =>
          let r := s.capTake t.job t.record kind c pos
          (r.1.getD body, r.2)
      | _ => (body, s)

/-- The thread of a core's ring replays recorded inputs. -/
def State.replaying (s : State) (c : Nat) : Bool :=
  match (s.ring (c / 16)).thread with
  | some t => (s.recd t.job t.record).cap.mode == 2 && !(s.recd t.job t.record).cap.stopped
  | none => false

/-- A choice of the scheduler for a launch (kind 0x03): code, ring and word value. -/
def State.choice (s : State) (j i code ring served word : Nat) : List Nat × State :=
  let r := s.recd j i
  let body := [code % 256 + i % 4096 * 256 + ring % 256 * 2 ^ 20 + served % 16 * 2 ^ 28, word]
  let s := s.setRec j i { r with events := r.events + 1 }
  match r.cap.mode with
  | 1 => (body, s.capAppend j i 0x03 0xFFF r.events 16 body)
  | 2 =>
      let t := s.capTake j i 0x03 0xFFF r.events
      (t.1.getD body, t.2)
  | _ => (body, s)

end Sys2Proof.Machine
end

