-- ==== Sys2Proof/Machine/Walk.lean ====
section
/-! DEFINITION. Physical memory under its keys (R29, R30, R174), the address map (R165, R166), page tables and their
walk (R168–R173), TLBs (R175), homing (R180) and the splitting of accesses (R182). -/

namespace Sys2Proof.Machine

open Sys2Proof

/-! ### Lines and words -/

/-- The words that bytes `o` to `o + n - 1` of a line touch. -/
def wordsOf (o n : Nat) : BitVec 16 :=
  if n = 0 then 0 else BitVec.ofNat 16 ((2 ^ ((o + n - 1) / 8 + 1) - 1) - (2 ^ (o / 8) - 1))

/-- The written words of a line whose write-back waits for the host. -/
def State.backFull (s : State) (ln : Nat) : BitVec 16 :=
  (s.backs.filter (fun b => b.ln == ln)).foldl (fun m b => m ||| b.full) 0

/-- Words of a line that are poisoned and not overwritten since (R251). -/
def State.poisoned (s : State) (ln : Nat) : BitVec 16 :=
  match Table.get? s.poison ln with
  | some w => ~~~(w ||| s.backFull ln)
  | none => 0

/-- A read of these words meets poison. -/
def State.poisonAt (s : State) (ln : Nat) (words : BitVec 16) : Bool := words &&& s.poisoned ln != 0

/-! ### Physical memory -/

/-- The key material in a slot, none for an empty slot (R29). (DESIGN CHOICE: log 12) -/
def State.keyMat (s : State) (kid : Nat) : Option Nat := Table.get? s.dev.keys kid

/-- A 16-byte block of a line as material `mat` deciphers what other material wrote (R29, R174). (DESIGN CHOICE: log 11) -/
def State.wrongBlock (s : State) (old mat pa : Nat) : BitVec 128 :=
  Config.decipher old mat (pa % 2 ^ 80 / 128) (pa % 128 / 16) (BitVec.ofNat 128 (Memory.readN s.mem (pa / 16 * 16) 16))

/-- The byte at a physical address as material `mat` deciphers it: a line written under other material reads, block by
block, as ciphertext under the wrong key (R174). (DESIGN CHOICE: log 11) -/
def State.physByte (s : State) (mat pa : Nat) : Byte :=
  match Table.get? s.lineKeys (pa / 128) with
  | none => Memory.read s.mem pa
  | some t =>
      if t = mat then Memory.read s.mem pa else (s.wrongBlock t mat pa).extractLsb' (8 * (pa % 16)) 8

/-- `n` bytes at a physical address, under key material `mat`. -/
def State.physRead (s : State) (mat pa : Nat) : Nat → Nat
  | 0 => 0
  | n + 1 => (s.physByte mat pa).toNat + 256 * State.physRead s mat (pa + 1) n

/-- Rewrite a line under other material: its bytes become what that material deciphers. -/
def State.rekey (s : State) (mat line : Nat) : State :=
  match Table.get? s.lineKeys line with
  | some t =>
      if t = mat then s
      else
        let v := s.physRead mat (128 * line) 128
        { s with mem := Memory.writeN s.mem (128 * line) 128 v, lineKeys := Table.put s.lineKeys line mat }
  | none => { s with lineKeys := Table.put s.lineKeys line mat }

/-- Write the low `n` bytes of a value at a physical address inside one line, under key material `mat`. -/
def State.physWrite (s : State) (mat pa n v : Nat) : State :=
  let s := s.rekey mat (pa / 128)
  { s with mem := Memory.writeN s.mem pa n v }

/-- The material of key 0, under which page tables and firmware memory are kept (R29, R168). -/
def State.mat0 (s : State) : Nat := (s.keyMat 0).getD 0

/-- An address range of R166 that has memory: HBM4, LPDDR-6, or the CXL and host tiers, with its tier codes; io space
is a range of its own. -/
inductive Range where
  | io | hbm | lpddr | cxl | none
  deriving DecidableEq, Repr

/-- The range of a physical address (R166). -/
def rangeOf (pa : Nat) : Range :=
  if pa < 0x001000000000 then .io
  else if pa < 0x00D000000000 then .hbm
  else if 0x010000000000 ≤ pa && pa < 0x028000000000 then .lpddr
  else if 0x400000000000 ≤ pa && pa < 0x800000000000 then .cxl
  else .none

/-- A block lies wholly in HBM4 or LPDDR-6. -/
def inModule (pa size : Nat) : Bool :=
  let r := rangeOf pa
  (r == .hbm || r == .lpddr) && rangeOf (pa + size - 1) == r

/-- The IO die that serves a physical address (R167). -/
def ioDie (pa : Nat) : Nat :=
  match rangeOf pa with
  | .hbm => (pa - 0x001000000000) / 0x003000000000
  | .lpddr => (pa - 0x010000000000) / 0x006000000000
  | _ => pa / 2 ^ 44 % 4

/-! ### Page tables -/

/-- A walk that ends in a fault: cause and level (R172, R178). -/
structure WalkFault where
  cause : Nat
  lvl : Nat
  deriving DecidableEq, Repr

/-- An entry that is not valid. -/
def notValid (lvl : Nat) : Except WalkFault Leaf := .error { cause := 1, lvl := lvl }

/-- A malformed entry. -/
def malformed (lvl : Nat) : Except WalkFault Leaf := .error { cause := 5, lvl := lvl }

/-- Page size of a leaf at a level. -/
def pageSize (lvl sz : Nat) : Nat := if lvl = 2 then 2 ^ 30 else if lvl = 1 then 2 ^ 21 else if sz = 1 then 65536 else 4096

/-- A leaf entry, checked under R172. (DEDUCED: log 33) -/
def leafOf (lvl key va w0 w1 : Nat) : Except WalkFault Leaf :=
  let sz := fld w0 6 1
  let size := pageSize lvl sz
  let frame := fld w0 12 40 * 4096
  let cls := fld w0 10 2
  let tier := fld w0 58 2
  let hom := fld w0 53 2
  let hp := fld w1 0 12
  let r := rangeOf frame
  let tierOk := match r with
    | .io | .hbm => tier == 0
    | .lpddr => tier == 1
    | .cxl => tier == 2 || tier == 3
    | .none => false
  let hpOk := match hom with
    | 1 => hp < 64
    | 2 => true
    | _ => hp == 0
  if fld w0 60 4 != 0 || fld w0 52 1 != 0 || fld w0 2 4 != 0 || fld w1 28 36 != 0 || fld w1 12 4 != 0 ||
      (lvl != 0 && sz == 1) || frame % size != 0 || !tierOk || rangeOf (frame + size - 1) != r ||
      (r == .io && cls != 3) || (cls != 2 && fld w0 55 3 != 0) || !hpOk then malformed lvl
  else
    .ok { key := key, page := va % 2 ^ 57 / size * size, size := size,
          seen := if size = 65536 then some (va % 2 ^ 57 / 4096) else none, frame := frame, cls := cls, cfmt := fld w0 55 3,
          hom := hom, hp := hp, tier := tier, kid := fld w1 16 12, r := natBit w0 7, w := natBit w0 8, x := natBit w0 9 }

/-- A table word read by the walker with key 0; none when it is poisoned and not overwritten since (R175, cause 11, R251). -/
def State.tableWord (s : State) (pa : Nat) : Option Nat :=
  if s.poisonAt (pa / 128) (wordsOf (pa % 128) 8) then none else some (s.physRead s.mat0 pa 8)

/-- A level-0 entry of 64 KiB pages takes the whole translation from the first of its sixteen (R173). -/
def State.walkBig (s : State) (key va tbl : Nat) : Except WalkFault Leaf :=
  let a := tbl + 16 * (fld va 12 9 / 16 * 16)
  match s.tableWord a, s.tableWord (a + 8) with
  | some w0, some w1 =>
      if !natBit w0 0 then notValid 0
      else if !natBit w0 1 || !natBit w0 6 then malformed 0
      else leafOf 0 key va w0 w1
  | _, _ => .error { cause := 11, lvl := 0 }

/-- The walk from a table at level 3 to 0 (R168–R173). -/
def State.walkFrom (s : State) (key va : Nat) : Nat → Nat → Except WalkFault Leaf
  | lvl, tbl =>
      let a := tbl + 16 * fld va (12 + 9 * lvl) 9
      match s.tableWord a, s.tableWord (a + 8) with
      | some w0, some w1 =>
          if !natBit w0 0 then notValid lvl
          else if natBit w0 1 then
            (if lvl = 3 then malformed 3
             else if lvl = 0 && natBit w0 6 then
               (match leafOf 0 key va w0 w1 with
                | .error e => .error e
                | .ok _ => State.walkBig s key va tbl)
             else leafOf lvl key va w0 w1)
          else
            match lvl with
            | 0 => malformed 0
            | l + 1 =>
                let next := fld w0 13 39 * 8192
                if fld w0 52 12 != 0 || fld w0 2 11 != 0 || w1 != 0 || !inModule next 8192 then malformed lvl
                else State.walkFrom s key va l next
      | _, _ => .error { cause := 11, lvl := lvl }
  termination_by structural lvl => lvl

/-- A walk of a job's five-level table (R168). -/
def State.walk (s : State) (root key va : Nat) : Except WalkFault Leaf :=
  match s.tableWord (root + 8 * fld va 48 9) with
  | none => .error { cause := 11, lvl := 4 }
  | some w =>
      let next := fld w 13 39 * 8192
      if !natBit w 0 then notValid 4
      else if natBit w 1 || fld w 52 12 != 0 || fld w 2 11 != 0 || !inModule next 8192 then malformed 4
      else s.walkFrom key va 3 next

/-! ### TLBs -/

/-- A cached translation serves a key and address. (DEDUCED: log 33) -/
def Leaf.serves (l : Leaf) (key va : Nat) : Bool :=
  l.key == key && l.page ≤ va && va < l.page + l.size && (match l.seen with
    | some p => p == va % 2 ^ 57 / 4096
    | none => true)

/-- A cached translation for a key and address. -/
def tlbFind (t : List Leaf) (key va : Nat) : Option Leaf :=
  t.find? (fun l => l.serves key va)

/-- Put a translation first, within a capacity. (DESIGN CHOICE: log 32) -/
def tlbAdd (t : List Leaf) (l : Leaf) (cap : Nat) : List Leaf :=
  (l :: t.filter (fun m => !(m.key == l.key && m.page == l.page && m.seen == l.seen))).take cap

/-- The page table root for a key: firmware's for key 0, else the open job's (R168). (DESIGN CHOICE: log 34) -/
def State.rootOf (s : State) (key : Nat) : Option Nat :=
  if key = 0 then some s.fwRoot
  else (s.jobs.find? (fun e => e.2.key == key && e.2.st != .closed)).map (·.2.root)

/-- Translate through the TLBs of core `c`, walking on a miss (R175). (DESIGN CHOICE: log 32) -/
def State.lookup (s : State) (c key va : Nat) : State × Except WalkFault Leaf :=
  match tlbFind (s.core c).tlb key va with
  | some l => (s, .ok l)
  | none =>
      let cl := c / 128
      let t2 := Table.get s.tlb2 cl []
      let fill (s : State) (l : Leaf) : State := s.setCore c { s.core c with tlb := tlbAdd (s.core c).tlb l 64 }
      match tlbFind t2 key va with
      | some l => (fill s l, .ok l)
      | none =>
          match s.rootOf key with
          | none => (s, .error { cause := 1, lvl := 4 })
          | some root =>
              match s.walk root key va with
              | .error e => (s, .error e)
              | .ok l => (fill { s with tlb2 := Table.put s.tlb2 cl (tlbAdd t2 l 4096) } l, .ok l)

/-! ### Homing -/

/-- The position of set bit number `k`, counted upward. -/
def nthBit {w : Nat} (m : BitVec w) (k : Nat) : Nat := (bitsSet m).getD k 0

/-- The address hash of R180. -/
def homeHash (pa : Nat) : Nat :=
  let ln := fld pa 7 45
  (ln % 4096) ^^^ (ln / 4096 % 4096) ^^^ (ln / 2 ^ 24 % 4096) ^^^ (ln / 2 ^ 36 % 512)

/-- The home of a line: a core (R180), or, past the cores, the host-line cache of an IO die for the host tier (R78). (DEDUCED: log 93) -/
def State.home (s : State) (l : Leaf) (pa : Nat) : Nat :=
  let h := homeHash pa
  if l.tier = 3 then 4096 + ioDie pa
  else match l.hom with
  | 1 =>
      let m0 : BitVec 32 := (Table.get s.hmask (l.hp % 64) 0).setWidth 32
      let m := if m0 = 0 then BitVec.allOnes 32 else m0
      nthBit m (h % (bitsSet m).length) * 128 + h % 128
  | 2 => l.hp
  | 3 =>
      if rangeOf pa == .hbm || rangeOf pa == .lpddr then
        ((2 * ioDie pa + fld pa 7 1) * 32 + fld pa 8 5) * 16 + h % 16
      else h
  | _ => h

/-! ### Splitting -/

/-- The largest power of two, up to 16, that does not exceed `n` and to which `a` is aligned (R182). -/
def partSize (a n : Nat) : Nat :=
  if 16 ≤ n && a % 16 == 0 then 16 else if 8 ≤ n && a % 8 == 0 then 8 else if 4 ≤ n && a % 4 == 0 then 4
  else if 2 ≤ n && a % 2 == 0 then 2 else 1

/-- The parts of an access of `n` bytes at `a` (R182), as address, offset in the access and size. -/
def splitParts : Nat → Nat → Nat → Nat → List (Nat × Nat × Nat)
  | 0, _, _, _ => []
  | fuel + 1, a, o, n =>
      if n = 0 then []
      else
        let k := partSize a n
        (a % 2 ^ 64, o, k) :: splitParts fuel (a + k) (o + k) (n - k)

/-- The parts of an access: one when it is naturally aligned. -/
def partsOf (a n : Nat) : List (Nat × Nat × Nat) := splitParts n a 0 n

end Sys2Proof.Machine
end

