-- ==== Sys2Proof/Machine/Chunks.lean ====
section
/-! DEFINITION. Chunks: their live-ins, squash and restart (R136–R140, R149), and the undo log of recovery regions
(R255, R256). -/

namespace Sys2Proof.Machine

open Sys2Proof

/-- Address after a `fork` (96 bits) or a `chk` (64 bits). -/
def pastFork (f : Word) : Word := f + 12

/-- Address after a `chk`. -/
def pastChk (e : Word) : Word := e + 8

/-! ### Live state -/

/-- The state forwarded between chunks, as a core holds it (R137). -/
def Core.live (c : Core) : Live :=
  { x := c.x, p := c.p, vl := c.vl, vtype := c.vtype, frm := c.frm, tshape := c.tshape }

/-- Begin a chunk on a core with its live-ins; every vector register, tile and chunk flag reads as zero (R137). (DEDUCED: log 48) -/
def Core.begin_ (c : Core) (l : Live) (levels : List Level) (pc : Word) : Core :=
  { c with
    x := l.x, p := l.p, vl := l.vl, vtype := l.vtype, frm := l.frm, tshape := l.tshape,
    v := Vector.replicate 64 0, t := Vector.replicate 4 0, fflags := 0, vcm := 0, tpAct := false, tpProg := 0,
    staging := 0, strip := {}, levels := levels, inds := [], regions := [], pc := pc, wait := .none, handler := false,
    asleep := false }

/-- The thread's system registers that R137 does not forward: the thread has one of each (R162). (DEDUCED: log 123) -/
def Core.adopt (c old : Core) : Core :=
  { c with tren := old.tren, srseed := old.srseed, utvec := old.utvec, ucause := old.ucause, uepc := old.uepc,
           uval := old.uval, tstk := old.tstk, tmask := old.tmask, logBase := old.logBase, logEn := old.logEn,
           logTail := old.logTail, logOvf := old.logOvf }

/-- The learned strides of a `fork`, zero where the table has none (R138). (DEDUCED: log 49) -/
def Ring.stridesOf (r : Ring) (f : Word) : Vector Word 64 :=
  match r.strides.find? (fun e => e.1 == f) with
  | some e => e.2
  | none => Vector.replicate 64 0

/-- Learn strides, newest first, eight entries (R138). (DEDUCED: log 49) (DESIGN CHOICE: log 131) -/
def Ring.learn (r : Ring) (f : Word) (v : Vector Word 64) : Ring :=
  { r with strides := ((f, v) :: r.strides.filter (fun e => e.1 != f)).take 8 }

/-- Predicted live-ins of chunk `j`: declared inductions from the `fork`, every other register by its learned stride from
the chunk `m` whose live-outs `l` are known; the rest unchanged (R138). (DEDUCED: log 49) -/
def Ring.predict (r : Ring) (g : Forked) (l : Live) (dist j : Nat) : Live :=
  let st := r.stridesOf g.f
  { l with x := Vector.ofFn (fun (i : Fin 64) =>
      match g.inds.find? (fun d => d.1 == i) with
      | some d => g.snap.x.get i + d.2 * wd (g.k * j)
      | none => l.x.get i + st.get i * wd dist) }

/-! ### Position in the ring -/

/-- The oldest chunk is held in a slot. -/
def Ring.isOldest (r : Ring) (slot : Fin 16) : Bool :=
  match r.chunks with
  | k :: _ => k.slot == slot
  | [] => false

/-- A core holds a speculative chunk: one that is not the oldest. -/
def Ring.isSpec (r : Ring) (slot : Fin 16) : Bool :=
  (r.chunkAt slot).isSome && !r.isOldest slot

/-- The chunks older than the one in a slot, nearest first. -/
def Ring.olderThan (r : Ring) (slot : Fin 16) : List Chunk :=
  (r.chunks.takeWhile (fun k => k.slot != slot)).reverse

/-- The chunks younger than the one in a slot, oldest first. -/
def Ring.youngerThan (r : Ring) (slot : Fin 16) : List Chunk :=
  (r.chunks.dropWhile (fun k => k.slot != slot)).drop 1

/-- The chunk that follows the one in a slot. -/
def Ring.nextAfter (r : Ring) (slot : Fin 16) : Option Chunk := (r.youngerThan slot).head?

/-! ### The undo log -/

/-- Key of a scratchpad byte in memory: its window address in this package (R62). -/
def padKey (core off : Nat) : Nat := 0xFE * 2 ^ 56 + core % 4096 * 2 ^ 32 + off

/-- Write bytes of a scratchpad. -/
def State.padPut (s : State) (core off n v : Nat) : State := { s with mem := Memory.writeN s.mem (padKey core off) n v }

/-- Read bytes of a scratchpad. -/
def State.padGet (s : State) (core off n : Nat) : Nat := Memory.readN s.mem (padKey core off) n

/-- Mark every open region unrecoverable (R253). -/
def Core.unrecAll (c : Core) : Core := { c with regions := c.regions.map (fun g => { g with unrec := true }) }

/-- Append a log entry: two header words and a body of whole 8-byte words (R256). While the log is off or has overflowed,
or when the entry does not fit, every open depth becomes unrecoverable. -/
def State.logEntry (s : State) (c : Nat) (w0 w1 : Nat) (body : List Nat) : State :=
  let k := s.core c
  let units := 1 + (body.length + 1) / 2
  if !k.logEn || k.logOvf then s.setCore c k.unrecAll
  else if 4096 < k.logTail + units then s.setCore c { k.unrecAll with logOvf := true }
  else
    let base := k.logBase * 0x10000 + 16 * k.logTail
    let ws := w0 :: w1 :: (body ++ (if body.length % 2 = 1 then [0] else []))
    let s := (ws.zipIdx).foldl (fun s e => s.padPut c (base + 8 * e.2) 8 e.1) s
    s.setCore c { k with logTail := k.logTail + units }

/-- The 8-byte word `i` of a line's data. -/
def lineWord (d : BitVec 1024) (i : Nat) : Nat := (d.extractLsb' (64 * i) 64).toNat

/-- Log the words of `mask` that a line held, for depth `pd` (R256 kind 0). -/
def State.logLine (s : State) (c va pd : Nat) (mask : BitVec 16) (d : BitVec 1024) : State :=
  if mask = 0 then s
  else s.logEntry c (pd % 4 * 2 ^ 60 + va % 2 ^ 57 / 128 * 128) mask.toNat ((bitsSet mask).map (lineWord d))

/-- Log the 16-byte blocks of the own scratchpad that a store is about to touch (R256 kind 1), and mark every open region
when the store enters the enabled log itself (R255). (DEDUCED: log 59) -/
def State.logPad (s : State) (c off n : Nat) : State :=
  let k := s.core c
  if k.regions.isEmpty || k.handler || n = 0 then s
  else
    let blocks := ((List.range ((off + n - 1) / 16 - off / 16 + 1)).map (fun i => 16 * (off / 16 + i))).filter
      (fun b => !k.logged.contains b)
    let s := blocks.foldl (fun s b => s.logEntry c (1 * 2 ^ 62 + b) 0 [s.padGet c b 8, s.padGet c (b + 8) 8]) s
    let s := s.setCore c { s.core c with logged := (s.core c).logged ++ blocks }
    let k := s.core c
    let lo := k.logBase * 0x10000
    if k.logEn && lo < off + n && off < lo + 0x10000 then s.setCore c k.unrecAll else s

/-! ### Squash -/

/-- Material of a line's key; 4096 stands for host memory, which is not encrypted. -/
def State.matK (s : State) (key : Nat) : Nat := if key = 4096 then 1 else (s.keyMat key).getD 0

/-- Bytes of a line's data. -/
def lineGet (d : BitVec 1024) (o n : Nat) : Nat := fld d.toNat (8 * o) (8 * n)

/-- Replace bytes of a line's data. -/
def linePut (d : BitVec 1024) (o n v : Nat) : BitVec 1024 := setFld d (8 * o) (8 * n) v

/-- The masked bytes of one line's data over those of another. -/
def overlay (d : BitVec 1024) (mask : BitVec 128) (new : BitVec 1024) : BitVec 1024 :=
  (bitsSet mask).foldl (fun d i => linePut d i 1 (lineGet new i 1)) d

/-- A line as level two holds it, under a key, with the write-backs of it that wait for the host. -/
def State.levelTwo (s : State) (key ln : Nat) : BitVec 1024 :=
  (s.backs.filter (fun b => b.ln == ln)).foldl (fun d b => overlay d b.mask b.data)
    (BitVec.ofNat 1024 (s.physRead (s.matK key) (128 * ln) 128))

/-- A version leaves nothing behind when it is squashed (R143): it has written words, and its core does not own the line (R186). A
soft line has no owner. -/
def Line.discarded (l : Line) : Bool :=
  match l.st with
  | .s _ => l.sw != 0 && (l.soft || l.coh != .own)
  | _ => false

/-- A line after a squash (R143): a version becomes ordinary again, clean, with committed data; a soft one that has written no word
holds its earlier dirty bytes over the data of level two (R346). (DEDUCED: log 127) -/
def State.squashLine (s : State) (ln : Nat) (l : Line) : Line :=
  match l.st with
  | .s _ =>
      let l := { l with st := .n, er := 0, present := 0, bad := 0, rel := none }
      if l.soft then { l with data := overlay (s.levelTwo l.key ln) l.sdirty l.data }
      else { l with sw := 0, sdirty := 0, full := 0, dirty := false }
  | _ => l

/-- A squashed core's lines (R143, R186). (DEDUCED: log 127) -/
def State.squashLines (s : State) (t : Table Line) : Table Line :=
  (t.filter (fun e => !e.2.discarded)).map (fun e => (e.1, s.squashLine e.1 e.2))

/-- What a squash discards on a core (R149 step 2); requests in flight are discarded when they return (R66). -/
def State.squashCore (s : State) (c : Core) : Core :=
  { c with
    l1 := s.squashLines c.l1, sbuf := [], rfilter := [], contribs := [], v := Vector.replicate 64 0,
    t := Vector.replicate 4 0, fflags := 0, levels := [], wait := .none, tpAct := false, tpProg := 0, staging := 0,
    vcm := 0, strip := {}, inds := [], oreqs := c.oreqs.map (fun e => (e.1, true)) }

/-- The state of a chunk that waits to restart; only the first squashed chunk keeps verified live-ins. -/
def Chunk.again (k : Chunk) (first : Bool) : Chunk :=
  { k with done := 0, depth := 0, exX := 0, wrX := 0, exP := 0, wrP := 0, exS := 0, wrS := 0, deferred := false,
           finished := false, ns := false, restart := true, repairable := true, actual := k.actual && first,
           arrived := k.arrived && first, count := 0 }

/-- A core takes the lowest-numbered free slabs of its quad's array until it holds the number it requested (R402, R403). -/
def State.takeSlabs (s : State) (c : Nat) : State :=
  let k := s.core c
  let taken := (List.range 4).foldl (fun m i => m ||| (s.core (4 * (c / 4) + i)).mslabs) 0
  let free := (List.range 8).filter (fun i => !taken.getLsbD i)
  let more := free.take (k.mreq - k.slabs)
  s.setCore c { k with mslabs := more.foldl (fun m i => setBit m i true) k.mslabs }

/-- A TLB invalidation in progress looks again at what chunks hold (R177). -/
def State.tlbiNote (s : State) : State := if s.tlbiGo then s.after .tlbiDone else s

/-- Squash the chunk in a slot and every younger one (R149). -/
def State.squash (s : State) (r : Nat) (slot : Fin 16) : State :=
  let g := s.ring r
  let hit := g.chunks.dropWhile (fun k => k.slot != slot)
  let keep := g.chunks.takeWhile (fun k => k.slot != slot)
  let slots := hit.map (·.slot)
  let idxs := hit.map (·.idx)
  let hit' := (hit.zipIdx).map (fun e => e.1.again (e.2 == 0))
  let g := { g with
    chunks := keep ++ hit', nsq := min (g.nsq + hit.length) 0xFFFF,
    bcasts := g.bcasts.filter (fun b => !slots.contains (Fin.ofNat 16 b.from_)),
    liveOuts := g.liveOuts.filter (fun l => !idxs.contains l.1) }
  let s := s.setRing r g
  let s := slots.foldl (fun s t =>
    (s.setCore (coreAt r t) (s.squashCore (s.core (coreAt r t)))).takeSlabs (coreAt r t)) s
  (slots.foldl (fun s t => s.after (.chunkRestart (Fin.ofNat 4096 (coreAt r t)))) s).tlbiNote

/-- Squash and discard every chunk younger than the one in a slot (R144). -/
def State.discardYounger (s : State) (r : Nat) (slot : Fin 16) : State :=
  match (s.ring r).nextAfter slot with
  | none => s
  | some k =>
      let s := s.squash r k.slot
      let g := s.ring r
      let gone := (g.youngerThan slot).map (·.slot)
      let s := s.setRing r { g with chunks := g.chunks.filter (fun k => !gone.contains k.slot) }
      gone.foldl (fun s t => s.setCore (coreAt r t) { s.core (coreAt r t) with wait := .ended }) s

/-- Tell the oldest chunk's core that what it waits for has come: the events of R136, R144, R152, R154 and R156. -/
def State.nudge (s : State) (r : Nat) : State :=
  match (s.ring r).chunks with
  | [] => s
  | k :: _ =>
      let c := coreAt r k.slot
      let f : Fin 4096 := Fin.ofNat 4096 c
      if k.restart then s
      else match (s.core c).wait with
        | .commit => s.after (.chunkCommit f)
        | .leave _ _ => s.after (.loopExit f)
        | .commitPoint => s.after (.commitPointExecute f)
        | .deferred => s.after (.deferredFaultReplay f)
        | .overflow => s.after (.overflowStallEnd f)
        | _ => s

end Sys2Proof.Machine
end

