-- ==== Sys2Proof/WellFormed.lean ====
section
/-! DEFINITION. Which instruction terms the encoding rules admit: types (R300), rounding codes (R273, R301),
scopes (R302) and immediate limits. `Instr.wfSub` names the sub-cause of trap 0x01 that a term which breaks
them would have, in the order of R306 (2, then 8, then 7). -/

namespace Sys2Proof

namespace Ty

/-- The code of a type in the ty field (R300). -/
def code : Ty → Fin 64
  | i8 => 0x01 | i16 => 0x02 | i32 => 0x03 | i64 => 0x04
  | n8 => 0x05 | n16 => 0x06 | n32 => 0x07 | n64 => 0x08
  | f64 => 0x10 | f32 => 0x11 | f16 => 0x12 | bf16 => 0x13
  | e4m3 => 0x14 | e5m2 => 0x15 | e2m1 => 0x16
  | mx4 => 0x18 | mx8 => 0x19 | fb4 => 0x1A

/-- The type a code names, none for 0x00 and the reserved codes (R300). -/
def ofCode (c : Fin 64) : Option Ty :=
  match c.val with
  | 0x01 => some i8 | 0x02 => some i16 | 0x03 => some i32 | 0x04 => some i64
  | 0x05 => some n8 | 0x06 => some n16 | 0x07 => some n32 | 0x08 => some n64
  | 0x10 => some f64 | 0x11 => some f32 | 0x12 => some f16 | 0x13 => some bf16
  | 0x14 => some e4m3 | 0x15 => some e5m2 | 0x16 => some e2m1
  | 0x18 => some mx4 | 0x19 => some mx8 | 0x1A => some fb4
  | _ => none

/-- Element width in bits (R300). -/
def width : Ty → Nat
  | i8 | n8 | e4m3 | e5m2 | mx8 => 8
  | i16 | n16 | f16 | bf16 => 16
  | i32 | n32 | f32 => 32
  | i64 | n64 | f64 => 64
  | e2m1 | mx4 | fb4 => 4

/-- A signed integer type (R271). -/
def isI : Ty → Bool
  | i8 | i16 | i32 | i64 => true
  | _ => false

/-- An integer type, `.i8` to `.n64`. -/
def isInt : Ty → Bool
  | i8 | i16 | i32 | i64 | n8 | n16 | n32 | n64 => true
  | _ => false

/-- The four types of the arithmetic units (R332, R376). -/
def isFp : Ty → Bool
  | f64 | f32 | f16 | bf16 => true
  | _ => false

/-- The element types of `vcvt` (R385). -/
def isFpElem : Ty → Bool
  | f64 | f32 | f16 | bf16 | e4m3 | e5m2 | e2m1 => true
  | _ => false

/-- A block format (R267). -/
def isBlock : Ty → Bool
  | mx4 | mx8 | fb4 => true
  | _ => false

/-- A type of width 8 to 64 that fixes only w (R379, R389). -/
def isElem (t : Ty) : Bool := 8 ≤ t.width

/-- The load types of R342. -/
def isLoad (t : Ty) : Bool := t.isInt || t.isFp || t == e4m3 || t == e5m2

/-- The contribution types of R350. -/
def isContrib : Ty → Bool
  | f64 | f32 | i64 | i32 | n64 => true
  | _ => false

/-- The types of the integer atomics (R351). -/
def isAmo : Ty → Bool
  | i32 | i64 | n32 | n64 => true
  | _ => false

/-- The types of the floating-point atomics (R351). -/
def isAmoF : Ty → Bool
  | f32 | f64 => true
  | _ => false

/-- Mantissa bits of a floating-point element type (R264). -/
def mant : Ty → Nat
  | f64 => 52 | f32 => 23 | f16 => 10 | bf16 => 7 | e4m3 => 3 | e5m2 => 2 | e2m1 => 1
  | _ => 0

/-- Largest binary exponent of a finite value, plus 2000 (R264). -/
def maxExp : Ty → Nat
  | f64 => 3023 | f32 => 2127 | f16 => 2015 | bf16 => 2127 | e4m3 => 2008 | e5m2 => 2015 | e2m1 => 2002
  | _ => 0

/-- Exponent of the smallest subnormal, negated (R264). -/
def minSub : Ty → Nat
  | f64 => 1074 | f32 => 149 | f16 => 24 | bf16 => 133 | e4m3 => 9 | e5m2 => 16 | e2m1 => 1
  | _ => 0

/-- A conversion between element types that is widening: every value of `s` is a value of `d` (R283). -/
def widens (s d : Ty) : Bool :=
  if s.isBlock then d == f64
  else s.isFpElem && d.isFpElem && s.mant ≤ d.mant && s.maxExp ≤ d.maxExp && s.minSub ≤ d.minSub

/-- A conversion from an integer type whose every value the target holds (R273). -/
def icvtExact (s d : Ty) : Bool :=
  match s with
  | i8 | n8 => d.isFp
  | i16 | n16 => d == f32 || d == f64
  | i32 | n32 => d == f64
  | _ => false

end Ty

/-- How an instruction treats its rounding field (R273). -/
inductive RndUse where
  | ignored      -- exact for its types
  | plain        -- rounds; codes 5 and 7 illegal
  | narrowing    -- rounds; only code 7 illegal
  deriving DecidableEq, Repr

/-- Whether a rounding code is illegal (R273, R301). -/
def RndUse.bad (u : RndUse) (rm : Fin 8) : Bool :=
  match u with
  | .ignored => false
  | .plain => rm == 5 || rm == 7
  | .narrowing => rm == 7

/-- Float to float (R273, R283, R337). -/
def RndUse.ofCvt (src dst : Ty) : RndUse :=
  if src == dst || src.isInt && dst.isInt || Ty.widens src dst then .ignored
  else if (src.isFpElem || src.isBlock) && dst.isFpElem then .narrowing
  else .plain

/-- Integer to float (R273, R287). -/
def RndUse.ofICvt (src dst : Ty) : RndUse := if Ty.icvtExact src dst then .ignored else .plain

/-- The pairs `vcvt` accepts (R385). -/
def vcvtPair (src dst : Ty) : Bool :=
  src.isFpElem && dst.isFpElem || src.isBlock && dst.isFp || src.isInt && dst.isInt

/-- The sources `vquant` accepts (R385). -/
def isQntSrc : Ty → Bool
  | .f32 | .f16 | .bf16 => true
  | _ => false

/-- The types of the first `mma` form (R404). -/
def isMmaTy : Ty → Bool
  | .f64 | .f32 | .f16 | .bf16 | .e4m3 | .e5m2 => true
  | _ => false

/-- Order of R306: sub-cause 2, then 8, then 7. -/
def subOf (bad2 bad8 bad7 : Bool) : Option Nat :=
  if bad2 then some 2 else if bad8 then some 8 else if bad7 then some 7 else none

/-- A scope code from 10 up is illegal (R302). -/
def badScope (sc : Fin 16) : Bool := 10 ≤ sc.val

/-- The operations of `ratom` that a type accepts (R426). -/
def ratomTyOk (t : Ty) (c : Reg) : Bool :=
  t.isAmo || (t.isAmoF && (c == 0 || c == 6 || c == 7))

/-- The immediate of `setvt` and `setvl` (R368). -/
def setImmBad (vt : Bool) (o : SetF) : Bool :=
  if o.a == 0 then vt && (o.imm.toNat / 512 != 0 || o.imm.toNat / 64 % 4 != 0 || o.imm.toNat / 8 % 2 != 0)
  else o.imm != 0

/-- The indices of `sysw` that have a row of their own in the opcode table (R360). -/
def syswOwnRow (i : Fin 4096) : Bool :=
  i == 0x000 || i == 0x002 || i == 0x006 || i == 0x011 || i == 0x019 || i == 0x01C ||
  i == 0x020 || i == 0x021 || i == 0x022 || i == 0x023 || i == 0x040

/-- A sign operation with one source must leave b at zero (R297, R335). -/
def sgnBad (sub : Fin 4) (b : Reg) (cb : Bool) : Bool := 2 ≤ sub.val && (b != 0 || cb)

/-- The sub-cause of trap 0x01 that an ill-formed term has, none for a well-formed one. Terms that are steps of the
module have no encoding and are always well formed. -/
def Instr.wfSub : Instr → Option Nat
  | .add o | .sub o | .mul o | .mulh o | .div o | .rem o | .and o | .or o | .xor o | .andn o | .sll o | .srl o
  | .sra o | .rol o | .min o | .max o | .adds o | .subs o | .seq o | .slt o | .sle o | .ext o =>
      subOf false (!o.ty.isInt) false
  | .sel o => subOf false (!o.ty.isInt) false
  | .clz o | .ctz o | .popc o | .mov o => subOf false (!o.ty.isInt) false
  | .slli o | .srli o | .srai o => subOf (64 ≤ o.imm.toNat) false false
  | .fadd o | .fsub o | .fmul o | .fdiv o => subOf (RndUse.plain.bad o.rm) (!o.ty.isFp) false
  | .fsqrt o => subOf (RndUse.plain.bad o.rm) (!o.ty.isFp) false
  | .fma o => subOf (RndUse.plain.bad o.rm) (!o.ty.isFp) false
  | .fmin o | .fmax o | .feq o | .flt o | .fle o => subOf false (!o.ty.isFp) false
  | .fclass o => subOf false (!o.ty.isFp) false
  | .fsgn o => subOf (sgnBad o.sub o.b false) (!o.ty.isFp) false
  | .fcvt o =>
      subOf ((RndUse.ofCvt o.src o.ty).bad o.rm)
        (!(o.ty.isFpElem && o.ty != .e2m1 && o.src.isFpElem && o.src != .e2m1)) false
  | .fcvti o => subOf (RndUse.plain.bad o.rm) (!(o.ty.isInt && o.src.isFp)) false
  | .ficvt o => subOf ((RndUse.ofICvt o.src o.ty).bad o.rm) (!(o.ty.isFp && o.src.isInt)) false
  | .ld o => subOf false (!o.ty.isLoad) (badScope o.sc)
  | .ldp o => subOf false false (badScope o.sc)
  | .st o => subOf false (!o.ty.isLoad) (badScope o.sc)
  | .stp o => subOf false false (badScope o.sc)
  | .fst o => subOf false (!o.ty.isContrib) (badScope o.sc)
  | .amoadd o | .amoand o | .amoor o | .amoxor o | .amoswap o | .amomin o | .amomax o =>
      subOf false (!o.ty.isAmo) (badScope o.sc)
  | .amocas o => subOf false (!o.ty.isAmo) (badScope o.sc)
  | .amofadd o | .amofmax o => subOf false (!o.ty.isAmoF) (badScope o.sc)
  | .fenceAcq o | .fenceRel o | .fenceFull o | .ssync o => subOf false false (badScope o.sc)
  | .relWiden o => subOf false false (badScope o.sc)
  | .sysw o => subOf (syswOwnRow o.idx) false false
  | .setvl o => subOf (setImmBad false o) false false
  | .setvt o => subOf (setImmBad true o) false false
  | .vadd o | .vsub o | .vmul o | .vmulh o | .vdiv o | .vrem o | .vand o | .vor o | .vxor o | .vandn o | .vsll o
  | .vsrl o | .vsra o | .vmin o | .vmax o | .vadds o | .vsubs o | .vext o => subOf false (!o.ty.isInt) false
  | .vabs o | .vneg o | .vmov o => subOf false (!o.ty.isInt) false
  | .vsel o => subOf false (!o.ty.isInt) false
  | .vaddScalar o | .vsubScalar o | .vmulScalar o | .vmulhScalar o | .vdivScalar o | .vremScalar o | .vandScalar o
  | .vorScalar o | .vxorScalar o | .vandnScalar o | .vsllScalar o | .vsrlScalar o | .vsraScalar o | .vminScalar o
  | .vmaxScalar o | .vaddsScalar o | .vsubsScalar o | .vextScalar o => subOf false (!o.ty.isInt) false
  | .vselScalar o => subOf false (!o.ty.isInt) false
  | .vaddImm o | .vsubImm o | .vmulImm o | .vmulhImm o | .vdivImm o | .vremImm o | .vandImm o | .vorImm o
  | .vxorImm o | .vandnImm o | .vsllImm o | .vsrlImm o | .vsraImm o | .vminImm o | .vmaxImm o | .vaddsImm o
  | .vsubsImm o | .vextImm o => subOf false (!o.ty.isInt) false
  | .vselImm o => subOf false (!o.ty.isInt) false
  | .vfadd o | .vfsub o | .vfmul o | .vfdiv o | .vfmin o | .vfmax o =>
      subOf (RndUse.plain.bad o.rm) (!o.ty.isFp) false
  | .vfsqrt o | .vfabs o | .vfneg o => subOf (RndUse.plain.bad o.rm) (!o.ty.isFp) false
  | .vfma o | .vfms o | .vfnma o => subOf (RndUse.plain.bad o.rm) (!o.ty.isFp) false
  | .vfsgn o => subOf (RndUse.plain.bad o.rm || sgnBad o.sub o.b o.cb) (!o.ty.isFp) false
  | .vfaddScalar o | .vfsubScalar o | .vfmulScalar o | .vfdivScalar o | .vfminScalar o | .vfmaxScalar o =>
      subOf (RndUse.plain.bad o.rm) (!o.ty.isFp) false
  | .vfmaScalar o | .vfmsScalar o | .vfnmaScalar o => subOf (RndUse.plain.bad o.rm) (!o.ty.isFp) false
  | .vfsgnScalar o => subOf (RndUse.plain.bad o.rm || sgnBad o.sub o.b false) (!o.ty.isFp) false
  | .vcmpEq o | .vcmpNe o | .vcmpLt o | .vcmpLe o | .vcmpGt o | .vcmpGe o =>
      subOf (o.xb && o.cb) (!(o.ty.isInt || o.ty.isFp)) false
  | .vcmpUn o => subOf (o.xb && o.cb) (!o.ty.isFp) false
  | .vfclass o => subOf false (!o.ty.isFp) false
  | .vperm o => subOf false (!o.ty.isElem) false
  | .vbcast o => subOf false (!o.ty.isElem) false
  | .vslideup o | .vslidedn o | .vextr o => subOf false (!o.ty.isElem) false
  | .vcompress o | .vexpand o | .vrev o => subOf false (!o.ty.isElem) false
  | .vins o => subOf false (!o.ty.isElem) false
  | .vredoSum o | .vredtSum o =>
      subOf (!o.ty.isInt && RndUse.plain.bad o.rm) (!(o.ty.isInt || o.ty.isFp)) false
  | .vredMax o | .vredMin o => subOf false (!(o.ty.isInt || o.ty.isFp)) false
  | .vredAnd o | .vredOr o | .vredXor o => subOf false (!o.ty.isInt) false
  | .vredsSum o | .vredsMean o => subOf (RndUse.plain.bad o.rm) (!o.ty.isFp) false
  | .vsscanSum o | .vsredSum o =>
      subOf (!o.ty.isInt && RndUse.plain.bad o.rm) (!(o.ty.isInt || o.ty.isFp)) false
  | .vsscanMax o | .vsredMax o => subOf false (!(o.ty.isInt || o.ty.isFp)) false
  | .vcvt o =>
      subOf ((RndUse.ofCvt o.src o.ty).bad o.rm || o.sat && !(o.src.isInt && o.ty.isInt) ||
        o.src != .fb4 && o.b != 0) (!vcvtPair o.src o.ty) false
  | .vcvti o => subOf (RndUse.plain.bad o.rm) (!(o.ty.isInt && o.src.isFp)) false
  | .vicvt o => subOf ((RndUse.ofICvt o.src o.ty).bad o.rm) (!(o.ty.isFp && o.src.isInt)) false
  | .vquant o =>
      subOf (RndUse.narrowing.bad o.rm || o.ty != .fb4 && o.b != 0) (!(o.ty.isBlock && isQntSrc o.src)) false
  | .vld o | .vldff o => subOf false (!o.ty.isElem) (badScope o.sc)
  | .vst o => subOf false (!o.ty.isElem) (badScope o.sc)
  | .vlds o => subOf false (!o.ty.isElem) (badScope o.sc)
  | .vldt o => subOf false (!(o.ty.isElem || o.ty == .e2m1)) (badScope o.sc)
  | .vsts o => subOf false (!o.ty.isElem) (badScope o.sc)
  | .vgath o => subOf false (!o.ty.isElem) (badScope o.sc)
  | .vscat o => subOf false (!o.ty.isElem) (badScope o.sc)
  | .mma o => subOf (RndUse.plain.bad o.rm) (!isMmaTy o.ty) false
  | .mmam o => subOf (RndUse.plain.bad o.rm) (!isMmaTy o.ty) false
  | .mmaBlock o =>
      subOf (RndUse.plain.bad o.f.rm || o.f.ty != .fb4 && (o.s.xba != 0 || o.s.xbb != 0)) (!o.f.ty.isBlock) false
  | .mmamBlock o =>
      subOf (RndUse.plain.bad o.f.rm || o.f.ty != .fb4 && (o.s.xba != 0 || o.s.xbb != 0)) (!o.f.ty.isBlock) false
  | .mldt o | .mmov o => subOf false (!o.ty.isAmoF) false
  | .mstt o => subOf false (!o.ty.isAmoF) false
  | .mmovWr o => subOf false (!o.ty.isAmoF) false
  | .rgnBegin o => subOf (256 ≤ o.imm.toNat) false false
  | .ratom o => subOf (8 ≤ o.c.val) (!ratomTyOk o.ty o.c) (badScope o.sc)
  | .cpy o => subOf false false (badScope o.sc)
  | .cpyv o => subOf false (o.ty != 0 && !o.cb) (badScope o.sc && !o.cb)
  | .send o | .sends o => subOf false false (badScope o.sc)
  | .mpoll o | .mwait o | .mpop o => subOf false false (badScope o.sc)
  | .drain o => subOf false false (badScope o.sc)
  | .pref o | .qpop o => subOf false false (badScope o.sc)
  | .qwait o | .arm o => subOf false false (badScope o.sc)
  | .qpush o => subOf false false (badScope o.sc)
  | .exit o => subOf false false (badScope o.sc)
  | _ => none

/-- A well-formed instruction term. -/
def Instr.wf (i : Instr) : Bool := i.wfSub == none

end Sys2Proof
end

