-- ==== Sys2Proof/Machine/Flags.lean ====
section
/-! DEFINITION. Arithmetic with its flags: the number formats of R264–R271, rounding (R273–R277), the flags of
R280–R282, conversions (R283–R288) and integer arithmetic (R271, R272). Values are exact rationals until they are
rounded once. -/

namespace Sys2Proof.Machine

open Sys2Proof

/-- The five sticky flags of R280: bit 0 inv, 1 dvz, 2 ovf, 3 unf, 4 inx. -/
abbrev FlagSet := BitVec 5

/-- Invalid operation. -/
def fInv : FlagSet := 1
/-- Division by zero. -/
def fDvz : FlagSet := 2
/-- Overflow. -/
def fOvf : FlagSet := 4
/-- Underflow. -/
def fUnf : FlagSet := 8
/-- Inexact. -/
def fInx : FlagSet := 16

/-- A flag when a condition holds. -/
def flagIf (c : Bool) (f : FlagSet) : FlagSet := if c then f else 0

/-- An encoding with the flags that producing it set. -/
structure FRes where
  bits : Nat
  fl : FlagSet
  deriving DecidableEq, Repr

/-! ### Formats -/

/-- A floating-point format (R264): mantissa bits, bias, largest exponent field of a finite value, whether it has
infinities, whether its topmost encoding is NaN (E4M3), and its width, the sign being the top bit. -/
structure Fmt where
  p : Nat
  bias : Nat
  emax : Nat
  hasInf : Bool
  topNaN : Bool
  w : Nat
  deriving DecidableEq, Repr

/-- The format of a floating-point element type (R264); `.mx8` has E4M3 elements, `.mx4` and `.fb4` have E2M1. -/
def fmtOf : Ty → Fmt
  | .f64 => ⟨52, 1023, 2046, true, false, 64⟩
  | .f32 => ⟨23, 127, 254, true, false, 32⟩
  | .f16 => ⟨10, 15, 30, true, false, 16⟩
  | .bf16 => ⟨7, 127, 254, true, false, 16⟩
  | .e4m3 | .mx8 => ⟨3, 7, 15, false, true, 8⟩
  | .e5m2 => ⟨2, 15, 30, true, false, 8⟩
  | _ => ⟨1, 1, 3, false, false, 4⟩

/-- The scale format E3M5, unsigned; its eight bits are the low bits of this nine-bit layout. -/
def e3m5 : Fmt := ⟨5, 7, 7, false, false, 9⟩

/-- A floating-point datum: the magnitude of a finite value is `num / den`. -/
inductive FVal where
  | nan (sig : Bool)
  | inf (neg : Bool)
  | fin (neg : Bool) (num den : Nat)
  deriving DecidableEq, Repr

/-- Sign bit of an encoding. -/
def Fmt.signOf (f : Fmt) (b : Nat) : Bool := natBit b (f.w - 1)

/-- Exponent field of an encoding. -/
def Fmt.expOf (f : Fmt) (b : Nat) : Nat := b % 2 ^ (f.w - 1) / 2 ^ f.p

/-- Mantissa field of an encoding. -/
def Fmt.manOf (f : Fmt) (b : Nat) : Nat := b % 2 ^ f.p

/-- The value of an encoding (R265). -/
def Fmt.value (f : Fmt) (b : Nat) : FVal :=
  let e := f.expOf b
  let m := f.manOf b
  let s := f.signOf b
  if f.emax < e then (if m = 0 then .inf s else .nan (!natBit m (f.p - 1)))
  else if f.topNaN && e == f.emax && m == 2 ^ f.p - 1 then .nan false
  else if e = 0 then .fin s m (2 ^ (f.bias + f.p - 1))
  else .fin s ((2 ^ f.p + m) * 2 ^ (e - 1)) (2 ^ (f.bias + f.p - 1))

/-- A subnormal encoding. -/
def Fmt.isSub (f : Fmt) (b : Nat) : Bool := f.expOf b == 0 && f.manOf b != 0

/-- The encoding with only its sign kept. -/
def Fmt.zeroLike (f : Fmt) (b : Nat) : Nat := if f.signOf b then 2 ^ (f.w - 1) else 0

/-- The encoding with a given sign. -/
def Fmt.withSign (f : Fmt) (neg : Bool) (mag : Nat) : Nat := (if neg then 2 ^ (f.w - 1) else 0) + mag % 2 ^ (f.w - 1)

/-- Magnitude encoding of infinity. -/
def Fmt.infMag (f : Fmt) : Nat := (f.emax + 1) * 2 ^ f.p

/-- Magnitude encoding of the largest finite value. -/
def Fmt.maxMag (f : Fmt) : Nat := f.emax * 2 ^ f.p + (2 ^ f.p - 1) - (if f.topNaN then 1 else 0)

/-- The default quiet NaN of R266; formats without NaN take +0 and set inv. -/
def Fmt.nanRes (f : Fmt) (fl : FlagSet) : FRes :=
  if f.hasInf then ⟨f.infMag + 2 ^ (f.p - 1), fl⟩
  else if f.topNaN then ⟨f.maxMag + 1, fl⟩
  else ⟨0, fl ||| fInv⟩

/-! ### Rounding -/

/-- Floor of the binary logarithm of `n / d`, for `n` and `d` not zero. -/
def ilog (n d : Nat) : Int :=
  let k : Int := (Nat.log2 n : Int) - (Nat.log2 d : Int)
  if n * 2 ^ (-k).toNat < d * 2 ^ k.toNat then k - 1 else k

/-- `n / d` in units of `2 ^ u`, as a fraction. -/
def scaled (n d : Nat) (u : Int) : Nat × Nat := (n * 2 ^ (-u).toNat, d * 2 ^ u.toNat)

/-- Whether a magnitude with integer part `q` and fraction `r / d` rounds up (R273, R277). -/
def roundsUp (mode rnd : Nat) (neg : Bool) (q r d : Nat) : Bool :=
  match mode with
  | 0 => d < 2 * r || (2 * r == d && q % 2 == 1)
  | 1 => d ≤ 2 * r
  | 2 => false
  | 3 => neg && r != 0
  | 4 => !neg && r != 0
  | _ => rnd < r * 4294967296 / d

/-- A magnitude rounded to an integer count of units, and whether that was inexact. (DEDUCED: log 71) -/
def roundUnits (mode rnd : Nat) (neg : Bool) (n d : Nat) : Nat × Bool :=
  let q := n / d
  let r := n % d
  (if roundsUp mode rnd neg q r d then q + 1 else q, r != 0)

/-- Overflow goes to infinity, or to the largest finite value (R275, R285). -/
def Fmt.overflow (f : Fmt) (mode : Nat) (neg : Bool) : Nat :=
  let toInf := f.hasInf && (mode == 0 || mode == 1 || mode == 5 || (mode == 3 && neg) || (mode == 4 && !neg))
  f.withSign neg (if toInf then f.infMag else f.maxMag)

/-- `round(v, f, mode)` of R275 for the value with sign `neg` and magnitude `n / d`; an exact zero takes `neg`. (DEDUCED: log 71) -/
def Fmt.round (f : Fmt) (mode rnd : Nat) (neg : Bool) (n d : Nat) : FRes :=
  if n = 0 then ⟨f.withSign neg 0, 0⟩
  else
    let e := ilog n d
    let lo : Int := 1 - (f.bias : Int) - (f.p : Int)
    let u : Int := max (e - (f.p : Int)) lo
    let nd := scaled n d u
    let (q, inexact) := roundUnits mode rnd neg nd.1 nd.2
    let (m, u') := if 2 ^ (f.p + 1) ≤ q then (q / 2, u + 1) else (q, u)
    let ef : Int := if m < 2 ^ f.p then 0 else u' + (f.p : Int) + (f.bias : Int)
    let mag := ef.toNat * 2 ^ f.p + m % 2 ^ f.p
    if f.maxMag < mag then ⟨f.overflow mode neg, fOvf ||| fInx⟩
    else
      let tiny :=
        e < 1 - (f.bias : Int) &&
          (let nd' := scaled n d (e - (f.p : Int))
           let q' := (roundUnits mode rnd neg nd'.1 nd'.2).1
           e + 1 < 1 - (f.bias : Int) || q' < 2 ^ (f.p + 1))
      ⟨f.withSign neg mag, flagIf inexact fInx ||| flagIf (tiny && inexact) fUnf⟩

/-- What an instruction rounds with: format, resolved mode, flush control (R279) and stochastic bits (R276). -/
structure FEnv where
  f : Fmt
  mode : Nat
  fz : Bool
  rnd : Nat := 0
  deriving DecidableEq, Repr

/-- A source operand, flushed when `fz` says so (R279). -/
def flushSrc (fz : Bool) (f : Fmt) (b : Nat) : Nat := if fz && f.isSub b then f.zeroLike b else b

/-- The value of a source operand. -/
def FEnv.src (e : FEnv) (b : Nat) : FVal := e.f.value (flushSrc e.fz e.f b)

/-- A result, flushed when `fz` says so (R279). -/
def FEnv.out (e : FEnv) (r : FRes) : FRes :=
  if e.fz && e.f.isSub r.bits then ⟨e.f.zeroLike r.bits, r.fl ||| fUnf ||| fInx⟩ else r

/-- Round an exact value with the environment. -/
def FEnv.fin (e : FEnv) (neg : Bool) (n d : Nat) : FRes := e.out (e.f.round e.mode e.rnd neg n d)

/-- An infinity of the format. -/
def FEnv.inf (e : FEnv) (neg : Bool) (fl : FlagSet) : FRes := ⟨e.f.withSign neg e.f.infMag, fl⟩

/-- The default NaN with inv. -/
def FEnv.invalid (e : FEnv) : FRes := e.f.nanRes fInv

/-- A signalling NaN. -/
def FVal.isSig : FVal → Bool
  | .nan s => s
  | _ => false

/-- A NaN. -/
def FVal.isNan : FVal → Bool
  | .nan _ => true
  | _ => false

/-- Sign of a value that is not a NaN. -/
def FVal.neg : FVal → Bool
  | .nan _ => false
  | .inf s => s
  | .fin s _ _ => s

/-- The value with its sign inverted. -/
def FVal.negate : FVal → FVal
  | .nan s => .nan s
  | .inf s => .inf (!s)
  | .fin s n d => .fin (!s) n d

/-! ### Exact sums and products -/

/-- A running exact sum (R289): invalid so far, NaN seen, infinities of each sign, whether all terms are zeros of one
sign (`zneg`), and the finite sum as a sign and magnitude. -/
structure Acc where
  inv : Bool := false
  nan : Bool := false
  pinf : Bool := false
  ninf : Bool := false
  allPz : Bool := true
  allNz : Bool := true
  neg : Bool := false
  num : Nat := 0
  den : Nat := 1
  deriving DecidableEq, Repr

/-- Exact sum of two signed magnitudes. -/
def addMag (na : Bool) (n d : Nat) (nb : Bool) (n' d' : Nat) : Bool × Nat × Nat :=
  let x := n * d'
  let y := n' * d
  if na == nb then (na, x + y, d * d') else if y ≤ x then (na, x - y, d * d') else (nb, y - x, d * d')

/-- Add one term. Equal denominators, the usual case, are kept. -/
def Acc.add (a : Acc) : FVal → Acc
  | .nan s => { a with nan := true, inv := a.inv || s, allPz := false, allNz := false }
  | .inf s => { a with pinf := a.pinf || !s, ninf := a.ninf || s, allPz := false, allNz := false }
  | .fin s n d =>
      let r :=
        if d = a.den then
          (if s == a.neg then (s, a.num + n, d) else if n ≤ a.num then (a.neg, a.num - n, d) else (s, n - a.num, d))
        else addMag a.neg a.num a.den s n d
      { a with
        allPz := a.allPz && n == 0 && !s, allNz := a.allNz && n == 0 && s,
        neg := r.1, num := r.2.1, den := r.2.2 }

/-- An invalid product: 0 × ∞ (R281). -/
def Acc.invalid (a : Acc) : Acc := { a with nan := true, inv := true, allPz := false, allNz := false }

/-- The sum rounded once (R275, R289): NaN, infinity, the zero rule, or the rounded value. -/
def Acc.round (a : Acc) (e : FEnv) : FRes :=
  if a.pinf && a.ninf then e.f.nanRes fInv
  else if a.nan then e.f.nanRes (flagIf a.inv fInv)
  else if a.pinf || a.ninf then e.inf a.ninf 0
  else if a.num = 0 then ⟨e.f.withSign (if a.allNz then true else if a.allPz then false else e.mode == 3) 0, 0⟩
  else e.fin a.neg a.num a.den

/-- The exact product, none for 0 × ∞. A signalling operand stays signalling. -/
def mulV : FVal → FVal → Option FVal
  | .nan s, y => some (.nan (s || y.isSig))
  | x, .nan s => some (.nan (s || x.isSig))
  | .inf s, .inf t => some (.inf (s != t))
  | .inf s, .fin t n _ => if n = 0 then none else some (.inf (s != t))
  | .fin s n _, .inf t => if n = 0 then none else some (.inf (s != t))
  | .fin s n d, .fin t m k => some (.fin (s != t) (n * m) (d * k))

/-- Add a product to a sum. -/
def Acc.addProd (a : Acc) (x y : FVal) : Acc :=
  match mulV x y with
  | some v => a.add v
  | none => a.invalid

/-- A + B. -/
def fpAdd (e : FEnv) (a b : Nat) : FRes := (({} : Acc).add (e.src a) |>.add (e.src b)).round e

/-- A − B. -/
def fpSub (e : FEnv) (a b : Nat) : FRes := (({} : Acc).add (e.src a) |>.add (e.src b).negate).round e

/-- A × B: an exact zero has the XOR of the signs, as IEEE 754 has it. -/
def fpMul (e : FEnv) (a b : Nat) : FRes :=
  match mulV (e.src a) (e.src b) with
  | none => e.invalid
  | some (.nan s) => e.f.nanRes (flagIf s fInv)
  | some (.inf s) => e.inf s 0
  | some (.fin s n d) => e.fin s n d

/-- A / B (R281). -/
def fpDiv (e : FEnv) (a b : Nat) : FRes :=
  match e.src a, e.src b with
  | .nan s, y => e.f.nanRes (flagIf (s || y.isSig) fInv)
  | x, .nan s => e.f.nanRes (flagIf (s || x.isSig) fInv)
  | .inf _, .inf _ => e.invalid
  | .inf s, .fin t _ _ => e.inf (s != t) 0
  | .fin s _ _, .inf t => e.fin (s != t) 0 1
  | .fin s n d, .fin t m k =>
      if m = 0 then (if n = 0 then e.invalid else e.inf (s != t) fDvz) else e.fin (s != t) (n * k) (d * m)

/-- Integer square root with `fuel` bits of result. -/
def isqrt : Nat → Nat → Nat
  | 0, _ => 0
  | fuel + 1, n =>
      let r := 2 * isqrt fuel (n / 4)
      if (r + 1) * (r + 1) ≤ n then r + 1 else r

/-- The square root of `n / d` as a fraction whose last bit stands for everything below it; more than 130 bits of it
are right, so rounding it once is rounding the square root once. -/
def sqrtFrac (n d : Nat) : Nat × Nat :=
  let v := n * d * 2 ^ 260
  let s := isqrt (Nat.log2 v / 2 + 1) v
  (2 * s + (if s * s = v then 0 else 1), 2 * d * 2 ^ 130)

/-- √A: −0 gives −0, a value below −0 is invalid (R281). -/
def fpSqrt (e : FEnv) (a : Nat) : FRes :=
  match e.src a with
  | .nan s => e.f.nanRes (flagIf s fInv)
  | .inf s => if s then e.invalid else e.inf false 0
  | .fin s n d =>
      if n = 0 then e.fin s 0 1
      else if s then e.invalid
      else e.fin false (sqrtFrac n d).1 (sqrtFrac n d).2

/-- ± A × B ± C rounded once (R288): `np` negates the product, `nc` the addend. -/
def fpFma (e : FEnv) (np nc : Bool) (a b c : Nat) : FRes :=
  let x := if np then (e.src a).negate else e.src a
  let z := if nc then (e.src c).negate else e.src c
  ((({} : Acc).addProd x (e.src b)).add z).round e

/-! ### Comparisons, minimum, maximum, signs and classes -/

/-- Order of two values that are not NaN, −0 equal to +0. -/
def cmpV : FVal → FVal → Ordering
  | .inf s, .inf t => if s == t then .eq else if s then .lt else .gt
  | .inf s, _ => if s then .lt else .gt
  | _, .inf t => if t then .gt else .lt
  | .fin s n d, .fin t m k =>
      if n = 0 ∧ m = 0 then .eq
      else if s != t then (if n = 0 then (if t then .gt else .lt) else if m = 0 then (if s then .lt else .gt)
        else if s then .lt else .gt)
      else if s then compare (m * d) (n * k) else compare (n * k) (m * d)
  | _, _ => .eq

/-- Minimum or maximum of R334; operands are compared and returned as flushed. -/
def fpMinMax (isMax : Bool) (e : FEnv) (a b : Nat) : FRes :=
  let a := flushSrc e.fz e.f a
  let b := flushSrc e.fz e.f b
  let x := e.f.value a
  let y := e.f.value b
  let fl := flagIf (x.isSig || y.isSig) fInv
  if x.isNan && y.isNan then e.f.nanRes fl
  else if x.isNan then ⟨b, fl⟩
  else if y.isNan then ⟨a, fl⟩
  else
    let aLess := match cmpV x y with
      | .lt => true
      | .gt => false
      | .eq => x.neg
    ⟨if aLess != isMax then a else b, fl⟩

/-- The comparisons of R336 and R377. -/
inductive Cmp where
  | eq | ne | lt | le | gt | ge | un
  deriving DecidableEq, Repr

/-- A floating-point comparison; `eq`, `ne` and `un` signal only for a signalling NaN, the others for any NaN. -/
def fpCmp (c : Cmp) (fz : Bool) (f : Fmt) (a b : Nat) : Bool × FlagSet :=
  let x := f.value (flushSrc fz f a)
  let y := f.value (flushSrc fz f b)
  let nan := x.isNan || y.isNan
  let quiet := flagIf (x.isSig || y.isSig) fInv
  let loud := flagIf nan fInv
  let o := cmpV x y
  match c with
  | .eq => (!nan && o == .eq, quiet)
  | .ne => (nan || o != .eq, quiet)
  | .lt => (!nan && o == .lt, loud)
  | .le => (!nan && o != .gt, loud)
  | .gt => (!nan && o == .gt, loud)
  | .ge => (!nan && o != .lt, loud)
  | .un => (nan, quiet)

/-- An integer comparison; none of them sets a flag. -/
def intCmp (c : Cmp) (a b : Int) : Bool :=
  match c with
  | .eq => a == b
  | .ne => a != b
  | .lt => a < b
  | .le => a ≤ b
  | .gt => b < a
  | .ge => b ≤ a
  | .un => false

/-- The sign operations of R335 by code: copySign, sign product, negate, abs. -/
def fpSgn (sub : Fin 4) (f : Fmt) (a b : Nat) : Nat :=
  let s := f.signOf a
  let t := f.signOf b
  f.withSign (match sub.val with
    | 0 => t
    | 1 => s != t
    | 2 => !s
    | _ => false) a

/-- The class mask of R336. -/
def fpClass (f : Fmt) (b : Nat) : Nat :=
  let s := f.signOf b
  match f.value b with
  | .nan sig => if sig then 512 else 256
  | .inf _ => if s then 128 else 8
  | .fin _ n _ =>
      if n = 0 then (if s then 16 else 1)
      else if f.isSub b then (if s then 32 else 2)
      else if s then 64 else 4

/-! ### Conversions -/

/-- Float to float from a value already read (R283–R285); `same` marks a conversion between equal types. -/
def cvtVal (e : FEnv) : FVal → FRes
  | .nan s => e.f.nanRes (flagIf s fInv)
  | .inf s => if e.f.hasInf then e.inf s 0 else ⟨e.f.withSign s e.f.maxMag, fInv⟩
  | .fin s n d => e.fin s n d

/-- Float to float (R283, R284, R337): to its own type an operand passes unchanged, a signalling NaN excepted. -/
def cvtFF (e : FEnv) (src : Fmt) (b : Nat) : FRes :=
  let b' := flushSrc e.fz src b
  if src = e.f then
    match src.value b' with
    | .nan true => e.f.nanRes fInv
    | _ => ⟨b', 0⟩
  else cvtVal e (src.value b')

/-- Lower bound of an integer type. -/
def intLo (t : Ty) : Int := if t.isI then -(2 ^ (t.width - 1) : Nat) else 0

/-- Upper bound of an integer type. -/
def intHi (t : Ty) : Int := if t.isI then (2 ^ (t.width - 1) : Nat) - 1 else (2 ^ t.width : Nat) - 1

/-- The low `w` bits of an integer. -/
def truncI (v : Int) (w : Nat) : Nat := (v % (2 ^ w : Nat)).toNat

/-- An element read as an integer of its type. -/
def readInt (t : Ty) (b : Nat) : Int :=
  let v := b % 2 ^ t.width
  if t.isI && natBit v (t.width - 1) then (v : Int) - (2 ^ t.width : Nat) else v

/-- Float to integer (R286); stochastic acts as to-nearest-even. -/
def cvtFI (t : Ty) (mode : Nat) : FVal → FRes
  | .nan _ => ⟨0, fInv⟩
  | .inf s => ⟨truncI (if s then intLo t else intHi t) t.width, fInv⟩
  | .fin s n d =>
      let (q, inexact) := roundUnits (if mode = 5 then 0 else mode) 0 s n d
      let v : Int := if s then -(q : Int) else q
      if v < intLo t then ⟨truncI (intLo t) t.width, fInv⟩
      else if intHi t < v then ⟨truncI (intHi t) t.width, fInv⟩
      else ⟨truncI v t.width, flagIf inexact fInx⟩

/-- Integer to float (R287). -/
def cvtIF (e : FEnv) (v : Int) : FRes := e.fin (v < 0) v.natAbs 1

/-- Integer to integer (R388). -/
def cvtII (t : Ty) (sat : Bool) (v : Int) : FRes :=
  if sat then
    (if v < intLo t then ⟨truncI (intLo t) t.width, fOvf⟩
     else if intHi t < v then ⟨truncI (intHi t) t.width, fOvf⟩
     else ⟨truncI v t.width, 0⟩)
  else ⟨truncI v t.width, 0⟩

/-! ### Integer arithmetic -/

/-- The integer functions of R327 and R374 with two sources. -/
inductive IOp where
  | add | sub | mul | mulh | div | rem | and | or | xor | andn | sll | srl | sra | rol | min | max | adds | subs
  | seq | slt | sle | mov | abs | neg | vext
  deriving DecidableEq, Repr

/-- Clamp to the range of a type; ovf when it clamps (R271). -/
def clampI (t : Ty) (v : Int) : Int × FlagSet :=
  if v < intLo t then (intLo t, fOvf) else if intHi t < v then (intHi t, fOvf) else (v, 0)

/-- The quotient of R272. -/
def divI (t : Ty) (a b : Int) : Int × FlagSet :=
  if b = 0 then (-1, fDvz)
  else if t.isI && a == intLo t && b == -1 then (a, fOvf)
  else (Int.tdiv a b, 0)

/-- The remainder of R272. -/
def remI (t : Ty) (a b : Int) : Int × FlagSet :=
  if b = 0 then (a, fDvz)
  else if t.isI && a == intLo t && b == -1 then (0, fOvf)
  else (Int.tmod a b, 0)

/-- The low `f` bits of A, extended by the type (R374 `vext`). -/
def extI (t : Ty) (f : Nat) (a : Int) : Int :=
  if f = 0 then a
  else
    let v := truncI a f
    if t.isI && natBit v (f - 1) then (v : Int) - (2 ^ f : Nat) else v

/-- The integer functions on sources A and B of type `t`, before the result is cut to its width. -/
def intOp (op : IOp) (t : Ty) (a b : Int) : Int × FlagSet :=
  let w := t.width
  let ua := truncI a w
  let ub := truncI b w
  let sh := ub % w
  match op with
  | .add => (a + b, 0)
  | .sub => (a - b, 0)
  | .mul => (a * b, 0)
  | .mulh => (a * b / (2 ^ w : Nat), 0)
  | .div => divI t a b
  | .rem => remI t a b
  | .and => ((ua &&& ub : Nat), 0)
  | .or => ((ua ||| ub : Nat), 0)
  | .xor => ((ua ^^^ ub : Nat), 0)
  | .andn => ((ua &&& (2 ^ w - 1 - ub) : Nat), 0)
  | .sll => (a * (2 ^ sh : Nat), 0)
  | .srl => ((ua / 2 ^ sh : Nat), 0)
  | .sra => ((if natBit ua (w - 1) then (ua : Int) - (2 ^ w : Nat) else ua) / (2 ^ sh : Nat), 0)
  | .rol => ((ua * 2 ^ sh + ua / 2 ^ (w - sh) : Nat), 0)
  | .min => (if a ≤ b then a else b, 0)
  | .max => (if a ≤ b then b else a, 0)
  | .adds => clampI t (a + b)
  | .subs => clampI t (a - b)
  | .seq => (if a = b then 1 else 0, 0)
  | .slt => (if a < b then 1 else 0, 0)
  | .sle => (if a ≤ b then 1 else 0, 0)
  | .mov => (a, 0)
  | .abs => ((a.natAbs : Int), 0)
  | .neg => (-a, 0)
  | .vext => (extI t sh a, 0)

/-- One bits in the low `w` bits. -/
def popcount : Nat → Nat → Nat
  | 0, _ => 0
  | w + 1, v => v % 2 + popcount w (v / 2)

/-- Zero bits above the highest one bit of a `w`-bit value. -/
def clzN (w v : Nat) : Nat := if v % 2 ^ w = 0 then w else w - 1 - Nat.log2 (v % 2 ^ w)

/-- Zero bits below the lowest one bit of a `w`-bit value. -/
def ctzN : Nat → Nat → Nat
  | 0, _ => 0
  | w + 1, v => if v % 2 = 1 then 0 else 1 + ctzN w (v / 2)

/-! ### Floating-point elements -/

/-- The floating-point functions with up to three sources. -/
inductive FOp where
  | add | sub | mul | div | sqrt | fma | fms | fnma | min | max
  deriving DecidableEq, Repr

/-- One floating-point element (R332, R376). -/
def fpOp (op : FOp) (e : FEnv) (a b c : Nat) : FRes :=
  match op with
  | .add => fpAdd e a b
  | .sub => fpSub e a b
  | .mul => fpMul e a b
  | .div => fpDiv e a b
  | .sqrt => fpSqrt e a
  | .fma => fpFma e false false a b c
  | .fms => fpFma e false true a b c
  | .fnma => fpFma e true false a b c
  | .min => fpMinMax false e a b
  | .max => fpMinMax true e a b

/-! ### Combining (R190) -/

/-- Bytes of a commutative element by format code. -/
def cfmtBytes (f : Nat) : Nat := if f = 1 ∨ f = 3 ∨ f = 5 then 4 else 8

/-- The element type that contributes to a format code (R350). -/
def cfmtOf (op : Nat) : Ty :=
  match op with
  | 0 | 4 => .f64
  | 1 | 5 => .f32
  | 2 => .i64
  | 3 => .i32
  | _ => .n64

/-- Identity element of a format code. -/
def cfmtId (f : Nat) : Nat :=
  match f with
  | 0 => 0x8000000000000000
  | 1 => 0x80000000
  | 4 => 0xFFF0000000000000
  | 5 => 0xFF800000
  | 7 => 0xFFFFFFFFFFFFFFFF
  | _ => 0

/-- An environment that rounds to nearest even and flushes nothing. -/
def plainEnv (f : Fmt) : FEnv := { f := f, mode := 0, fz := false }

/-- The larger of two encodings, −0 below +0, a NaN operand giving the default NaN. -/
def combMax (f : Fmt) (a b : Nat) : Nat :=
  if (f.value a).isNan || (f.value b).isNan then (f.nanRes 0).bits else (fpMinMax true (plainEnv f) a b).bits

/-- One combining step. -/
def combine (f a b : Nat) : Nat :=
  match f with
  | 0 => (fpAdd (plainEnv (fmtOf .f64)) a b).bits
  | 1 => (fpAdd (plainEnv (fmtOf .f32)) a b).bits
  | 2 => (a + b) % 2 ^ 64
  | 3 => (a + b) % 2 ^ 32
  | 4 => combMax (fmtOf .f64) a b
  | 5 => combMax (fmtOf .f32) a b
  | 6 => a ||| b
  | _ => a &&& b

/-! ### Stochastic bits -/

/-- The mixing function of R276. -/
def mix64 (z : BitVec 64) : BitVec 64 :=
  let z := (z ^^^ (z >>> 30)) * 0xBF58476D1CE4E5B9#64
  let z := (z ^^^ (z >>> 27)) * 0x94D049BB133111EB#64
  z ^^^ (z >>> 31)

/-- The random word of R276 from the seed, the address, the iteration indices outermost first, the element index and
the source bits. -/
def stochastic (seed pc : Word) (iters : List Nat) (i src : Nat) : Nat :=
  let h := iters.foldl (fun h k => mix64 (h ^^^ BitVec.ofNat 64 k)) (mix64 (seed ^^^ pc))
  let h := mix64 (mix64 (h ^^^ BitVec.ofNat 64 i) ^^^ BitVec.ofNat 64 src)
  h.toNat / 4294967296

end Sys2Proof.Machine
end

