-- ==== Sys2Proof/Machine/Torus.lean ====
section
/-! DEFINITION. The Loess torus as its sources and destinations see it: nodes and ports (R41, R42), flits and packets with their
heads, lanes, checks and streams (R43–R46, R67), injecting a packet, asking through an outstanding-request entry (R65), and
answering (R46, R49, R55). -/

namespace Sys2Proof.Machine

open Sys2Proof

/-! ### Nodes and ports -/

/-- Torus coordinates of a node (R41). -/
def nodeX (n : Nat) : Nat := 4 * (n / 32 % 4) + n / 8 % 4

/-- The other coordinate. -/
def nodeY (n : Nat) : Nat := 8 * (n / 32 / 4) + n % 8

/-- The node at coordinates. -/
def nodeAt (x y : Nat) : Nat := 32 * (4 * (y / 8) + x / 4) + 8 * (x % 4) + y % 8

/-- Distance on a ring of sixteen. -/
def axis (a b : Nat) : Nat := min ((a + 16 - b) % 16) ((b + 16 - a) % 16)

/-- Hops between two nodes. -/
def hops (m n : Nat) : Nat := axis (nodeX m) (nodeX n) + axis (nodeY m) (nodeY n)

/-- The neighbours of a node through +x, −x, +y and −y. -/
def neighbours (n : Nat) : List Nat :=
  let x := nodeX n
  let y := nodeY n
  [nodeAt ((x + 1) % 16) y, nodeAt ((x + 15) % 16) y, nodeAt x ((y + 1) % 16), nodeAt x ((y + 15) % 16)]

/-- Port numbers: 2 for each direction, one on each plane. -/
def ports : List Nat := List.range 8

/-- The node at the other end of a port. -/
def portTo (n port : Nat) : Nat := (neighbours n).getD (port / 2) n

/-- A port that reduces the distance to a destination. -/
def productive (n dst port : Nat) : Bool := hops (portTo n port) dst < hops n dst

/-- Node of a core (R41). -/
def nodeOf (core : Nat) : Nat := core / 16 % 256

/-- The node through which a UALink port is reached (R42). -/
def ualNode (p : Nat) : Nat := 32 * (2 * (p / 6) + p % 2) + 8 * (p % 6 / 2) + 7

/-- The node through which a line of the memory of an IO die is reached from afar (R42). -/
def gatewayNode (die pa : Nat) : Nat := 32 * (2 * die + fld pa 7 1) + fld pa 8 5

/-- The lane of a packet to an address (R45). -/
def laneOf (a : Nat) : Nat := fld a 7 2 ^^^ fld a 9 2 ^^^ fld a 11 2

/-! ### Membership and routes (R54–R56, R61) -/

/-- A key is a member of a Loess node's table, or is firmware's (R54, R55). -/
def State.memberN (s : State) (n key : Nat) : Bool :=
  key == 0 || (List.range 64).any (fun i => Table.get s.fab.lmtN (64 * n + i) 0 == wd (2 ^ 63 + key))

/-- A key is a member of a UALink port's table. -/
def State.memberP (s : State) (p key : Nat) : Bool :=
  key == 0 || (List.range 64).any (fun i => Table.get s.fab.lmtP (64 * p + i) 0 == wd (2 ^ 63 + key))

/-- Count an event in a counter, recording a key or zero (R59). -/
def countUp (t : Table Word) (n key : Nat) : Table Word :=
  Table.put t n (wd (key % 65536 * 2 ^ 48 + min (fld (Table.get t n 0).toNat 0 48 + 1) (2 ^ 48 - 1)))

/-- Drop a packet of a key at a node's port (R55). -/
def State.dropAt (s : State) (n key : Nat) : State :=
  { s with fab := { s.fab with dropKeyN := countUp s.fab.dropKeyN n key } }

/-- Make faults sticky (R234) for the thread of a key that used core `c`: at the core of its oldest chunk, or in its
parked image. (DEDUCED: log 64) -/
def State.stick (s : State) (c key : Nat) (bits : BitVec 8) : State :=
  let r := c / 16
  let g := s.ring r
  let add (k : Core) : Core := { k with tstk := k.tstk ||| bits }
  let image (p : Parked) : Bool := p.thread.key == key
  match g.thread, g.parked with
  | some t, none => let o := if t.key = key then coreAt r g.head else c; s.setCore o (add (s.core o))
  | some t, some p =>
      if image p && t.key != key then
        s.setRing r { g with parked := some { p with cores := p.cores.map (fun e =>
          if e.1 = coreAt r p.head then (e.1, add e.2) else e) } }
      else let o := coreAt r g.head; s.setCore o (add (s.core o))
  | none, some p =>
      if image p then
        s.setRing r { g with parked := some { p with cores := p.cores.map (fun e =>
          if e.1 = coreAt r p.head then (e.1, add e.2) else e) } }
      else s.setCore c (add (s.core c))
  | none, none => s.setCore c (add (s.core c))

/-- A denied store, message or copy: a record, and the sticky denial (R56). (DEDUCED: log 28) -/
def State.deniedRecord (s : State) (c key : Nat) (pc : Word) (f : AccFault) : State :=
  (s.record (c / 128) key c pc f).stick c key 1

/-- The UALink port by which an IO die sends to a device (R61), none when the entry is invalid or names none. (DESIGN CHOICE: log 18) -/
def State.portOut (s : State) (die dev addr : Nat) : Option Nat :=
  let e := Table.get s.fab.drt dev 0
  let all := (List.range 24).filter (fun p => e.getLsbD (24 + p))
  let own := all.filter (fun p => p / 6 == die)
  let from_ := if own.isEmpty then all else own
  if !e.getLsbD 63 then none else from_[Config.routeHash addr % from_.length]?

/-- The UALink port that carries traffic of a core to a device. (DESIGN CHOICE: log 18) -/
def State.portFor (s : State) (core dev addr : Nat) : Option Nat := s.portOut (core / 1024) dev addr

/-! ### Packets -/

/-- The class of a packet's head (R43, R44): requests, responses, coherence, messages, copies. -/
def classOf (kind : Nat) : Nat :=
  if kind ≤ 3 then 0 else if kind = 7 then 3 else if kind = 8 then 4 else if kind = 9 then 2 else 1

/-- A packet by number. -/
def State.pkt (s : State) (pid : Nat) : Option Pkt := s.fab.pkts.find? (fun p => p.pid == pid)

/-- Replace a packet. -/
def State.setPkt (s : State) (p : Pkt) : State :=
  { s with fab := { s.fab with pkts := s.fab.pkts.map (fun q => if q.pid = p.pid then p else q) } }

/-- Release the held copy of a packet (R46). -/
def State.removePkt (s : State) (pid : Nat) : State :=
  { s with fab := { s.fab with pkts := s.fab.pkts.filter (fun q => q.pid != pid) } }

/-- Payload blocks of a packet. -/
def Pkt.blocks (p : Pkt) : Nat := (p.payload.length + 63) / 64

/-- Every payload block has arrived. -/
def Pkt.whole (p : Pkt) : Bool := (List.range p.blocks).all (fun b => p.arrived.getLsbD b)

/-- Every payload block has arrived or is lost. -/
def Pkt.settled (p : Pkt) : Bool := (List.range p.blocks).all (fun b => p.arrived.getLsbD b || p.gone.getLsbD b)

/-- Mask bits of every block of a packet. (DEDUCED: log 97) -/
def Pkt.full (p : Pkt) : BitVec 64 := BitVec.ofNat 64 (2 ^ p.blocks - 1)

/-- Two packets of one stream (R43). (DEDUCED: log 23) -/
def Pkt.sameStream (p q : Pkt) : Bool := p.src == q.src && p.dst == q.dst && p.lane == q.lane

/-- Two packets of one source to one line (R67); the messages to a receive ring buffer count as one line. (DEDUCED: log 23) -/
def Pkt.sameLine (p q : Pkt) : Bool :=
  p.src == q.src && p.dst == q.dst && (p.kind == 7) == (q.kind == 7) &&
    (if p.kind = 7 then p.dcore == q.dcore && p.buf == q.buf else p.addr / 128 == q.addr / 128)

/-- Key of a stream in `Fab.seqs`. -/
def Pkt.streamKey (p : Pkt) : Nat := 1024 * p.src + 4 * p.dst + p.lane

/-- A packet not yet delivered, denied or discarded at its destination. -/
def Pkt.pending (p : Pkt) : Bool :=
  match p.phase with
  | .acked | .denied | .away | .forming | .waiting | .lost => false
  | _ => true

/-- A packet, no answer, that its destination has not yet closed: appended, denied or discarded. -/
def Pkt.unfinished (p : Pkt) : Bool := p.ref.isNone && p.phase != .acked && p.phase != .denied && p.phase != .lost

/-- The packets of a stream before this one for which it waits: under resequenced delivery all that are still pending (R67), in both modes
the messages before a message that have been refused for want of room (R53). (DEDUCED: log 23) -/
def State.before (s : State) (p : Pkt) : List Pkt :=
  (s.fab.pkts.takeWhile (fun q => q.pid != p.pid)).filter (fun q =>
    q.sameStream p && q.pending && (!s.fab.ordAct || (p.kind == 7 && q.kind == 7 && q.again)))

/-- Check a packet, or the one behind it, at its destination. -/
def State.check (s : State) (p : Pkt) : State := s.after (.packetArrival p.pid [])

/-- The packets of a stream behind one that has left it may be next. -/
def State.checkNext (s : State) (p : Pkt) : State :=
  match s.fab.pkts.find? (fun q => q.pid != p.pid && q.sameStream p && q.pending && q.head) with
  | some q => s.check q
  | none => s

/-! ### Bytes of a packet (R43, R44) -/

/-- One step of CRC-32C on a bit. -/
def crcBit (c : BitVec 32) : BitVec 32 := if c.getLsbD 0 then (c >>> 1) ^^^ 0x82F63B78#32 else c >>> 1

/-- CRC-32C of bytes (R44). (DEDUCED: log 21) -/
def crc32c (bs : List Byte) : BitVec 32 :=
  ~~~(bs.foldl (fun c b =>
    let c := c ^^^ b.zeroExtend 32
    crcBit (crcBit (crcBit (crcBit (crcBit (crcBit (crcBit (crcBit c)))))))) (BitVec.allOnes 32))

/-- The payload of data flit `b`, counted from 0. -/
def Pkt.dataFlit (p : Pkt) (b : Nat) : List Byte :=
  let d := (p.payload.drop (64 * b)).take 64
  d ++ List.replicate (64 - d.length) 0

/-- The inline field of a head: a message's tag, sequence number, sender and length; an atomic's operation and operands; the data of a
store or of a short response; the failed sequence number of a refused packet (R49). (DEDUCED: log 21) -/
def Pkt.inline (p : Pkt) : List Byte :=
  let d : List Byte :=
    if p.kind = 7 then bytesOf 8 p.tag.toNat ++ bytesOf 4 p.mseq ++ bytesOf 2 p.score ++ bytesOf 2 p.payload.length
    else match p.atom, p.reply with
      | some o, _ => bytesOf 1 o.op ++ bytesOf (o.ty.width / 8) o.b ++ bytesOf (o.ty.width / 8) o.b2
      | none, some r => if p.payload.isEmpty then r.data else []
      | none, none => p.inl
  d.take 32 ++ List.replicate (32 - d.length) 0

/-- Bytes 0 to 59 of a head flit's payload (R44). (DEDUCED: log 21) -/
def Pkt.headFields (p : Pkt) : List Byte :=
  [BitVec.ofNat 8 p.kind, BitVec.ofNat 8 p.blocks, BitVec.ofNat 8 (if p.kind ≤ 3 then p.size else 0),
    BitVec.ofNat 8 (p.sc % 16 * 16 + bitN p.fresh * 8 + bitN p.sand * 4 + bitN p.acq * 2 + bitN p.rel)] ++
  bytesOf 2 (p.oreq % 64) ++ bytesOf 2 (if p.sand then p.sdl else 0) ++
  bytesOf 8 (if p.kind = 7 then p.buf.val else p.addr) ++ p.inline ++ List.replicate 12 0

/-- The head flit's payload with its crc, which covers the data flits of every packet but a sand one (R44). -/
def Pkt.headBytes (p : Pkt) : List Byte :=
  p.headFields ++
    bytesOf 4 (crc32c (p.headFields ++ if p.sand then [] else (List.range p.blocks).flatMap p.dataFlit)).toNat

/-- The header of a flit without its parity bit (R43). -/
def Flit.header (f : Flit) : Nat :=
  f.dst % 256 * 2 ^ 56 + f.src % 256 * 2 ^ 48 + f.age % 1024 * 2 ^ 38 + f.cls % 8 * 2 ^ 35 + f.key % 65536 * 2 ^ 19 +
    f.dl % 256 * 2 ^ 11 + f.lane % 4 * 2 ^ 9 + f.seq % 256 * 2

/-- The 72 bytes of a flit of a packet, its header first and its parity even (R43). -/
def Flit.bytes (f : Flit) (p : Pkt) : List Byte :=
  let d := if f.block = 0 then p.headBytes else p.dataFlit (f.block - 1)
  let ones := popcount 64 f.header + (d.map (fun b => popcount 8 b.toNat)).sum
  bytesOf 8 (f.header + ones % 2) ++ d

/-- Turn over a bit of some bytes. -/
def flipBit (bs : List Byte) (i : Nat) : List Byte := bs.set (i / 8) (bs.getD (i / 8) 0 ^^^ BitVec.ofNat 8 (2 ^ (i % 8)))

/-- The bits that were turned over on the way in flit `b` of a packet (0 its head), by their places in the flit (R43). -/
def flipsOf (flips : List (Nat × Nat)) (b : Nat) : List Nat := (flips.filter (fun f => f.1 == b && f.2 < 576)).map (·.2)

/-- Bytes of a flit's payload as they arrive. -/
def struck (flips : List (Nat × Nat)) (b : Nat) (d : List Byte) : List Byte :=
  ((flipsOf flips b).filter (64 ≤ ·)).foldl (fun d i => flipBit d (i - 64)) d

/-- The parity of a flit holds: it was even when the flit was sent, so an even number of its bits have turned over (R43, R49). -/
def parityHolds (flips : List (Nat × Nat)) (b : Nat) : Bool := (flipsOf flips b).length % 2 == 0

/-- The crc in a packet's head agrees with what has arrived (R44, R49). -/
def Pkt.crcHolds (p : Pkt) (flips : List (Nat × Nat)) : Bool :=
  let h := struck flips 0 p.headBytes
  let d := if p.sand then [] else (List.range p.blocks).flatMap (fun b => struck flips (b + 1) (p.dataFlit b))
  (crc32c (h.take 60 ++ d)).toNat == ofBytes (h.drop 60)

/-- A packet passes the checks of its destination (R49); of a sand packet they are those of its head. -/
def Pkt.passes (p : Pkt) (flips : List (Nat × Nat)) : Bool :=
  flips.isEmpty ||
    (p.crcHolds flips && (List.range (if p.sand then 1 else p.blocks + 1)).all (parityHolds flips))

/-- Blocks of a sand packet whose parity fails (R50). -/
def Pkt.badBlocks (p : Pkt) (flips : List (Nat × Nat)) : BitVec 64 :=
  if p.sand then BitVec.ofNat 64
    (((List.range p.blocks).map (fun b => if parityHolds flips (b + 1) then 0 else 2 ^ b)).sum)
  else 0

/-- The payload as it has arrived: an error that no check finds stays in it. -/
def Pkt.received (p : Pkt) (flips : List (Nat × Nat)) : Pkt :=
  if flips.isEmpty then p
  else { p with payload :=
    (((List.range p.blocks).flatMap (fun b => struck flips (b + 1) (p.dataFlit b))).take p.payload.length) }

/-! ### Injecting (R45–R47, R67) -/

/-- A flit of a packet, as its source holds it: 0 the head, then the blocks. (DEDUCED: log 22) -/
def Pkt.flit (p : Pkt) (b : Nat) : Flit :=
  { at_ := p.src, src := p.src, dst := p.dst, age := 0, cls := if b = 0 || !p.sand then classOf p.kind else 5, key := p.key,
    dl := if b = 0 || !p.sand then 0 else max 1 (min p.sdl 255), lane := p.lane, seq := (p.seq + b) % 256, pid := p.pid, block := b }

/-- The flits of a packet: the head, and the data flits; `data` says whether those are sent too. (DEDUCED: log 22) -/
def Pkt.flits (p : Pkt) (data : Bool) : List Flit :=
  p.flit 0 :: (if data then ((List.range p.blocks).filter (fun b => p.came.getLsbD b)).map (fun b => p.flit (b + 1)) else [])

/-- A router's next cycle. -/
def State.route (s : State) (n : Nat) : State :=
  let e : Turn := .event (.routerCycle (Fin.ofNat 256 n))
  if s.turns.contains e then s else s.andThen e

/-- Put flits at their source, waiting for a free port. -/
def State.putFlits (s : State) (n : Nat) (fs : List Flit) : State :=
  ({ s with fab := { s.fab with flits := s.fab.flits ++ fs } }).route n

/-- Put a packet's flits at its source. -/
def State.launchFlits (s : State) (p : Pkt) (data : Bool) : State := s.putFlits p.src (p.flits data)

/-- A packet that its source has begun to send, or is to send as soon as an earlier one to its line is acknowledged. -/
def Pkt.begun (p : Pkt) : Bool := p.ref.isNone && p.phase != .forming && p.phase != .waiting

/-- Under gateway-counted delivery a packet waits at its source while an earlier one to its line is unacknowledged (R67). -/
def State.lineBusy (s : State) (p : Pkt) : Bool :=
  s.fab.ordAct && p.ref.isNone && s.fab.pkts.any (fun q => q.begun && q.sameLine p)

/-- Inject a new packet: the next sequence numbers of its stream. The data flits of a sand packet from another device follow as
they come; blocks that are already lost are not sent. (DEDUCED: log 22) -/
def State.inject (s : State) (p : Pkt) : State :=
  let q := Table.get s.fab.seqs p.streamKey 0
  let wait := s.lineBusy p
  let p := { p with pid := s.fab.nextPid, seq := q, phase := if wait then .queued else .fly
                    came := if p.sand && p.origin.isSome && p.ref.isNone then 0 else p.full &&& ~~~p.gone }
  let s := { s with fab := { s.fab with
    pkts := s.fab.pkts ++ [p], nextPid := s.fab.nextPid + 1,
    seqs := Table.put s.fab.seqs p.streamKey ((q + 1 + p.blocks) % 256) } }
  if wait then s else s.launchFlits p (!(p.sand && p.origin.isSome))

/-- A packet has left: the next one to its line is injected (R67). -/
def State.nextOfLine (s : State) (p : Pkt) : State :=
  match s.fab.pkts.find? (fun q => q.begun && q.sameLine p) with
  | some q => if q.phase != .queued then s else (s.setPkt { q with phase := .fly }).launchFlits q (!(q.sand && q.origin.isSome))
  | none => s

/-! ### Asking and answering -/

/-- The key of the accesses of a core: its thread's, or firmware's in handler mode (R54). -/
def State.coreKey (s : State) (c : Nat) : Nat :=
  if (s.core c).handler then 0
  else match (s.ring (c / 16)).thread with
    | some t => t.key
    | none => 0

/-- The lowest free entry of a core; when all 64 are in use, the next place of those that wait for one. (DEDUCED: log 58) -/
def Core.freeEntry (c : Core) : Nat :=
  ((List.range (65 + c.oreqs.length)).find? (fun i => !c.oreqs.any (fun e => e.1 == i))).getD 0

/-- Outstanding-request entries in use (R65). -/
def Core.inUse (c : Core) : Nat := (c.oreqs.filter (fun e => e.1 < 64)).length

/-- A request of the core waits for an entry: its next instruction is not issued (R65). (DEDUCED: log 58) -/
def Core.asking (c : Core) : Bool := c.oreqs.any (fun e => 64 ≤ e.1 && !e.2)

/-- What a request's head carries (R44): its kind, size and address, flags, a store's data or an atomic's operation; and what the access
has read. -/
structure Ask where
  kind : Nat
  size : Nat := 0
  addr : Nat
  fl : Flags := {}
  data : List Byte := []
  atom : Option AtomOp := none
  result : List Byte := []
  deriving DecidableEq, Repr

/-- The packet of a request of a core, from one node to another. -/
def State.askPkt (s : State) (c src dst : Nat) (q : Ask) : Pkt :=
  { pid := 0, src := src, dst := dst, lane := laneOf q.addr, kind := q.kind, key := s.coreKey c, seq := 0, score := c, sdev := 0,
    dcore := 16 * dst, buf := 0, mseq := 0, tag := 0, payload := [], sand := false, sdl := 0, size := q.size, addr := q.addr,
    rel := q.fl.rel, acq := q.fl.acq, fresh := q.fl.fresh, sc := q.fl.sc, atom := q.atom, inl := q.data, result := q.result }

/-- A core asks for an access at a node: it takes an entry, and a one-flit packet travels there and is answered; within the node's
own ring or die nothing enters the torus. The access itself is performed when it is asked for. A request that finds all 64
entries in use waits for one; parties past the cores have no such entries (R65). (DEDUCED: log 26, 58) -/
def State.request (s : State) (c node : Nat) (q : Ask) : State :=
  if 4096 ≤ c then s
  else
    let k := s.core c
    let i := k.freeEntry
    let s := s.setCore c { k with oreqs := k.oreqs ++ [(i, false)] }
    if node = nodeOf c then (if i < 64 then s.after (.loadResponse (Fin.ofNat 4096 c) (Fin.ofNat 64 i)) else s)
    else
      let p := { s.askPkt c (nodeOf c) node q with oreq := i }
      if i < 64 then s.inject p
      else { s with fab := { s.fab with
        pkts := s.fab.pkts ++ [{ p with pid := s.fab.nextPid, phase := .waiting }], nextPid := s.fab.nextPid + 1 } }

/-- What the home of a line asks of memory for a core travels between two nodes (R42). (DEDUCED: log 26) -/
def State.askMemory (s : State) (c src dst : Nat) (q : Ask) : State :=
  if 4096 ≤ c || src = dst then s else s.inject { s.askPkt c src dst q with leg := true }

/-- A response has come: its entry is free, and the request that has waited longest takes it (R65). (DEDUCED: log 58) -/
def State.freeEntry (s : State) (c i : Nat) : State :=
  let k := s.core c
  let rest := k.oreqs.filter (fun e => e.1 != i)
  match rest.find? (fun e => 64 ≤ e.1) with
  | none => s.setCore c { k with oreqs := rest }
  | some w =>
      let s := s.setCore c { k with oreqs := rest.map (fun e => if e.1 = w.1 then (i, e.2) else e) }
      match s.fab.pkts.find? (fun p => p.phase == .waiting && p.score == c && p.oreq == w.1) with
      | some p => (s.removePkt p.pid).inject { p with oreq := i }
      | none => s.after (.loadResponse (Fin.ofNat 4096 c) (Fin.ofNat 64 i))

/-- The packet that carries an answer back (R44, R45): a response, an acknowledge, a denied, a refused or an unsupported one. The data
of a sand get are sand data (R72). -/
def Pkt.answerOf (p : Pkt) (r : Reply) : Pkt :=
  let data := if r.data.length ≤ 32 then [] else r.data
  let a : Pkt :=
    { pid := 0, src := p.dst, dst := p.src, lane := p.lane, kind := r.kind, key := p.key, seq := 0, score := p.score, sdev := 0,
      dcore := p.score, buf := p.buf, mseq := 0, tag := 0, payload := data, sand := p.sand && r.kind == 4 && !data.isEmpty,
      sdl := p.sdl, addr := p.addr, oreq := p.oreq, ref := some p.pid, reply := some r }
  if a.sand then { a with gone := a.full &&& ~~~r.mask } else a

/-- The node to which the answer to a packet goes: its source; to what another device has asked, that of the UALink port by which the
answer leaves (R61). -/
def State.answerNode (s : State) (p : Pkt) : Nat :=
  if p.origin.isNone then p.src else ((s.portOut (p.dst / 64) p.sdev p.addr).map ualNode).getD p.src

/-- Answer a packet: acknowledged or denied. The port of its destination checks the key of an answer as of every packet (R54, R55); a
denied packet is the port's own. (DEDUCED: log 121) -/
def State.answer (s : State) (p : Pkt) (ph : Phase) (r : Reply) : State :=
  if r.kind != 6 && !s.memberN p.dst p.key then
    ((s.setPkt { p with phase := .lost, reply := some r }).dropAt p.dst p.key).checkNext p
  else
    ((s.setPkt { p with phase := ph, reply := some r }).inject { p.answerOf r with dst := s.answerNode p }).checkNext p

/-- Acknowledge a packet, with the blocks of it that have arrived. (DEDUCED: log 121) -/
def State.ack (s : State) (p : Pkt) (mask : BitVec 64) : State := s.answer p .acked { kind := 5, mask := mask, data := [] }

/-- Deny a packet (R55). -/
def State.denyPkt (s : State) (p : Pkt) : State := s.answer p .denied { kind := 6, mask := 0, data := [] }

/-- The answer to a packet is on its way. -/
def State.answering (s : State) (pid : Nat) : Bool := s.fab.pkts.any (fun q => q.ref == some pid)

end Sys2Proof.Machine
end

