-- ==== Sys2Proof/Machine/Cache.lean ====
section
/-! DEFINITION. Level-one lines and their homes: the directory protocol (R183–R186), the host-line cache and host
filter (R79, R82), soft write-backs and drains (R187, R188), commutative partials (R191, R192), poison (R251), and
loads and stores of cached memory under chunk and region versions (R143, R145, R146). -/

namespace Sys2Proof.Machine

open Sys2Proof

/-! ### Lines -/

/-- The key a leaf's lines are kept under. -/
def Leaf.lineKey (l : Leaf) : Nat := if l.tier = 3 then 4096 else l.kid

/-- A level-one line of a core. -/
def State.line (s : State) (c ln : Nat) : Option Line := Table.get? (s.core c).l1 ln

/-- Set a level-one line. -/
def State.putLine (s : State) (c ln : Nat) (l : Line) : State :=
  s.setCore c { s.core c with l1 := Table.put (s.core c).l1 ln l }

/-- Remove a level-one line. -/
def State.eraseLine (s : State) (c ln : Nat) : State :=
  s.setCore c { s.core c with l1 := Table.erase (s.core c).l1 ln }

/-- The byte mask of bytes `o` to `o + n - 1`. -/
def byteMask (o n : Nat) : BitVec 128 := BitVec.ofNat 128 ((2 ^ n - 1) * 2 ^ o)

/-- Words whose eight bytes are all in a mask. -/
def fullWords (m : BitVec 128) : BitVec 16 :=
  BitVec.ofNat 16 (((List.range 16).map (fun i => if m.extractLsb' (8 * i) 8 = 255 then 2 ^ i else 0)).sum)

/-- Words with a byte in a mask. -/
def dirtyWords (m : BitVec 128) : BitVec 16 :=
  BitVec.ofNat 16 (((List.range 16).map (fun i => if m.extractLsb' (8 * i) 8 = 0 then 0 else 2 ^ i)).sum)

/-- Replace one word of a line's data. -/
def setWord (d : BitVec 1024) (i v : Nat) : BitVec 1024 := setFld d (64 * i) 64 v

/-! ### Host lines and the host filter (R78, R79, R82) -/

/-- The number a line has in memory: an independent line of R174 is numbered above it. -/
def realLine (ln : Nat) : Nat := ln % 2 ^ 73

/-- A half of the host-line cache. -/
def State.half (s : State) (h : Nat) : Half := Table.get s.halves h {}

/-- Replace a half. -/
def State.putHalf (s : State) (h : Nat) (x : Half) : State := { s with halves := Table.put s.halves h x }

/-- The halves that the host-line cache of a half's IO die holds or awaits. -/
def State.dieHalves (s : State) (h : Nat) : Table Half :=
  s.halves.filter (fun e => ioDie (64 * e.1) == ioDie (64 * h) && (e.2.st != .i || e.2.req.isSome))

/-- Request a half from the host: for ownership, or shared. The 4 MiB of an IO die hold 65536 halves; when they are full, one
that awaits nothing is evicted first, chosen freely (R78). (DESIGN CHOICE: log 31) -/
def State.askHalf (s : State) (h : Nat) (own : Bool) : State :=
  let held := s.dieHalves h
  if held.length < 65536 then
    (s.putHalf h { s.half h with req := some own }).emit (if own then .rdOwn h else .rdShared h)
  else
    let out := held.filter (fun e => e.2.req.isNone)
    match out[Config.freeNat s.free % out.length]? with
    | some e => s.drew.after (.hostLineEviction e.1)
    | none => s

/-- A core access reaches a half (R79): what it waits for, none when it may be performed. -/
def State.halfNeed (s : State) (h : Nat) (write : Bool) : Option Wait × State :=
  let x := s.half h
  match x.st, write with
  | .i, _ => if x.req.isSome then (some (.go h), s) else (some (.go h), s.askHalf h write)
  | .s, true =>
      if x.req.isSome then (some (.go h), s)
      else (some (.go h), (s.putHalf h { x with req := some true }).emit (.rdOwnNoData h))
  | .e, true => (none, s.putHalf h { x with st := .m })
  | _, _ => (none, s)

/-- A host filter entry. -/
def State.filt (s : State) (l : Nat) : Filt := Table.get s.filter l {}

/-- Replace a host filter entry. -/
def State.putFilt (s : State) (l : Nat) (x : Filt) : State := { s with filter := Table.put s.filter l x }

/-- A core access reaches the host filter (R82). -/
def State.filtNeed (s : State) (l : Nat) (write : Bool) : Option Wait × State :=
  let x := s.filt l
  if x.bi.isSome then (some (.bi l), s)
  else match x.st, write with
    | .n, _ => (none, s)
    | .s, false => (none, s)
    | .a, false => (some (.bi l), (s.putFilt l { x with bi := some false }).emit (.biSnpData l))
    | _, true => (some (.bi l), (s.putFilt l { x with bi := some true }).emit (.biSnpInv l))

/-- What an access waits for at one half: a write-back of it that waits goes first. -/
def State.needAt (s : State) (host : Bool) (h : Nat) (write : Bool) : Option Wait × State :=
  let r := if host then s.halfNeed h write else s.filtNeed h write
  let back := s.backs.any (fun b => 2 * realLine b.ln + b.half == h)
  (r.1.or (if back then some (if host then .go h else .bi h) else none), r.2)

/-- Whether the device may serve bytes of a line now: host-tier halves hold what is needed, and the host filter of module
memory has let go (R78, R82). Every half or line touched is asked. (DEDUCED: log 94) -/
def State.available (s : State) (tier pa n : Nat) (write : Bool) : Option Wait × State :=
  let h := pa % 2 ^ 80 / 64
  let h' := (pa % 2 ^ 80 + n - 1) / 64
  if tier = 2 then (none, s)
  else
    let r := s.needAt (tier == 3) h write
    if h' = h then r
    else
      let r' := r.2.needAt (tier == 3) h' write
      (r.1.or r'.1, r'.2)

/-- The same of a whole line that is fetched, and of the bytes of it that are written. -/
def State.availableLine (s : State) (tier pa n : Nat) (write : Bool) : Option Wait × State :=
  let w := if write then s.available tier pa n true else (none, s)
  let r := w.2.available tier (128 * (pa / 128)) 128 false
  (w.1.or r.1, r.2)

/-! ### Poison (R251) -/

/-- Words overwritten in a poisoned line; all sixteen clear it. -/
def State.wroteWords (s : State) (ln : Nat) (words : BitVec 16) : State :=
  match Table.get? s.poison ln with
  | none => s
  | some w =>
      if w ||| words = BitVec.allOnes 16 then { s with poison := Table.erase s.poison ln }
      else { s with poison := Table.put s.poison ln (w ||| words) }

/-- A home's entry. -/
def State.dir (s : State) (ln : Nat) : Dir := Table.get s.dirs ln {}

/-- Replace a home's entry. -/
def State.putDir (s : State) (ln : Nat) (d : Dir) : State := { s with dirs := Table.put s.dirs ln d }

/-- A write sets the line's release tag when it is a release write, and clears it otherwise (R223). -/
def State.tagLine (s : State) (ln : Nat) (rel : Option RelTag) : State :=
  if rel.isNone && (Table.get? s.dirs ln).isNone then s else s.putDir ln { s.dir ln with tag := rel }

/-- A write that is no release write clears the line's release tag (R223). -/
def State.clearTag (s : State) (ln : Nat) : State := s.tagLine ln none

/-- The home of one of several independent lines holds it dirty (R174). -/
def State.markSplit (s : State) (ln : Nat) : State :=
  match Table.get? s.splits (realLine ln) with
  | none => s
  | some ds => if ds.contains ln then s else { s with splits := Table.put s.splits (realLine ln) (ln :: ds) }

/-- Write the masked bytes of a line to level two; `full` marks the words among them that were filled, `rel` is the tag of a release
store among them. -/
def State.commitNow (s : State) (key ln : Nat) (mask : BitVec 128) (full : BitVec 16) (d : BitVec 1024)
    (rel : Option RelTag) : State :=
  let s := (s.rekey (s.matK key) ln).markSplit ln
  let m := (bitsSet mask).foldl (fun m i => Memory.write m (128 * ln + i) (d.extractLsb' (8 * i) 8)) s.mem
  ({ s with mem := m }.wroteWords ln full).tagLine ln rel

/-- Write back the bytes of one half of a line: once the half holds M, or the host filter has let go (R79, R82, R206); until
then they wait. (DEDUCED: log 57) -/
def State.commitHalf (s : State) (key ln : Nat) (mask : BitVec 128) (full : BitVec 16) (d : BitVec 1024) (rel : Option RelTag)
    (i : Nat) : State :=
  let m := mask &&& byteMask (64 * i) 64
  let full := full &&& dirtyWords m
  if m = 0 then s
  else if ln ≠ realLine ln then s.commitNow key ln m full d rel
  else
    let r := s.needAt (key == 4096) (2 * ln + i) true
    if r.1.isNone then r.2.commitNow key ln m full d rel
    else { r.2 with backs := r.2.backs ++
      [{ ln := ln, half := i, key := key, mask := m, full := full, data := d, rel := rel }] }

/-- Write the masked bytes of a line to level two, half by half. -/
def State.commitBytes (s : State) (key ln : Nat) (mask : BitVec 128) (full : BitVec 16) (d : BitVec 1024)
    (rel : Option RelTag := none) : State :=
  (s.commitHalf key ln mask full d rel 0).commitHalf key ln mask full d rel 1

/-- The write-backs that waited are tried again, in their order. -/
def State.flushBacks (s : State) : State :=
  s.backs.foldl (fun s b => s.commitHalf b.key b.ln b.mask b.full b.data b.rel b.half) { s with backs := [] }

/-- The words that a store fills: an instruction fills a word of a poisoned line by all its stores together (R251). -/
def State.cover (s : State) (c ln : Nat) (mask : BitVec 128) : BitVec 16 × State :=
  if (Table.get? s.poison ln).isNone then (fullWords mask, s)
  else
    let m := Table.get (s.core c).covered ln 0 ||| mask
    (fullWords m, s.setCore c { s.core c with covered := Table.put (s.core c).covered ln m })

/-- A store of core `c` writes `n` bytes of a line at offset `o` to level two. -/
def State.storeBytes (s : State) (c key ln o n v : Nat) : State :=
  let f := s.cover c ln (byteMask o n)
  (((f.2.physWrite (s.matK key) (128 * ln + o) n v).wroteWords ln f.1).clearTag ln).markSplit ln

/-! ### Misses (R42, R65) -/

/-- The node where a level-one miss of a core is served: its line's home, or the gateway of the IO die that homes a host-tier line.
What the Silt network of the core's own die reaches, and what its own IO die serves, stays at its own node (R42, R69). -/
def State.missNode (s : State) (c ln : Nat) : Nat :=
  match Table.get? s.lineHomes ln with
  | none => nodeOf c
  | some code =>
      let h := code / 4
      if 4096 ≤ h then (if c / 1024 = h - 4096 then nodeOf c else gatewayNode (h - 4096) (128 * realLine ln))
      else if c / 512 = h / 512 then nodeOf c
      else nodeOf h

/-- What the home of a line asks of memory crosses the torus when the memory is on an IO die other than the home's neighbour: from
the home's node to the gateway of that IO die (R42). The host tier is served at its IO die. (DEDUCED: log 26) -/
def State.memoryLeg (s : State) (ln : Nat) : List (Nat × Nat) :=
  match Table.get? s.lineHomes ln with
  | none => []
  | some code =>
      let h := code / 4
      let pa := 128 * realLine ln
      if 4096 ≤ h || h / 1024 = ioDie pa then [] else [(nodeOf h, gatewayNode (ioDie pa) pa)]

/-- A level-one miss takes an entry, and travels to its line's home in the coherence class (R43, R65); its response brings the line. The
home asks memory for the line. -/
def State.missTo (s : State) (c ln : Nat) (fl : Flags) : State :=
  let q : Ask := { kind := 9, addr := 128 * realLine ln, fl := fl, result := bytesOf 128 (Memory.readN s.mem (128 * ln) 128) }
  let s := s.request c (s.missNode c ln) q
  (s.memoryLeg ln).foldl (fun s l => s.askMemory c l.1 l.2 q) s

/-! ### A line leaves or is downgraded -/

/-- A sibling request: made by another core of the ring on behalf of a live chunk of the same thread (R186), not by the
handler that runs there. -/
def State.isSibling (s : State) (o : Nat) (r : Option Nat) : Bool :=
  match r with
  | none => false
  | some c =>
      c / 16 == o / 16 && c != o && !(s.core c).handler && ((s.ring (c / 16)).chunkAt (slotOf c)).isSome &&
        ((s.ring (o / 16)).chunkAt (slotOf o)).isSome

/-- Remove a line, or leave it shared and clean; a soft version leaves a clean copy only where it holds every word. -/
def State.leaveLine (s : State) (o ln : Nat) (excl : Bool) : State :=
  match s.line o ln with
  | none => s
  | some l =>
      if excl || (l.soft && l.st != .n && l.present != BitVec.allOnes 16) then s.eraseLine o ln
      else s.putLine o ln { l with
        st := .n, coh := if l.soft then .inv else .sh, dirty := false, sw := 0, er := 0, sdirty := 0, full := 0, bad := 0,
        present := 0, rel := none }

/-- The chunk in a slot has had an effect that cannot be undone (R158). (DEDUCED: log 52) -/
def State.unrepairableAt (s : State) (c : Nat) : State :=
  let g := s.ring (c / 16)
  match g.chunkAt (slotOf c) with
  | some k => s.setRing (c / 16) (g.setChunk { k with repairable := false })
  | none => s

/-- The bytes of a version become committed data, and a release store among them sets the line's tag (R223). -/
def State.commitVersion (s : State) (ln : Nat) (l : Line) : State := s.commitBytes l.key ln l.sdirty l.full l.data l.rel

/-- The version words of a line become committed data. -/
def State.writeVersion (s : State) (o ln : Nat) (l : Line) : State :=
  match l.st with
  | .s _ => (if l.sdirty = 0 then s else s.unrepairableAt o).commitVersion ln l
  | .g _ => (s.logLine o l.va 0 l.sw (s.levelTwo l.key ln)).commitVersion ln l
  | .n => s

/-- An invalidation (`excl`), downgrade or recall reaches core `o` for a tracked line (R143, R186); `r` is the
requesting core, none for a home or the host. -/
def State.dropLine (s : State) (o ln : Nat) (r : Option Nat) (excl : Bool) : State :=
  match s.line o ln with
  | none => s
  | some l =>
      if l.soft then s
      else match l.st with
        | .n => s.leaveLine o ln excl
        | .g _ => (s.writeVersion o ln l).leaveLine o ln excl
        | .s _ =>
            if !(s.ring (o / 16)).isSpec (slotOf o) then (s.writeVersion o ln l).leaveLine o ln excl
            else if l.er = 0 ∧ l.sw = 0 then s.leaveLine o ln excl
            else if s.isSibling o r then s.putLine o ln { l with coh := .inv, present := l.present &&& l.sw }
            else (s.squash (o / 16) (slotOf o)).leaveLine o ln excl

/-- Recall every tracked copy of a line (R79, R82, R164). (DEDUCED: log 52) -/
def State.recall (s : State) (ln : Nat) (excl : Bool) : State :=
  let holders := (s.cores.filter (fun e => match Table.get? e.2.l1 ln with
    | some l => !l.soft
    | none => false)).map (·.1)
  let s := holders.foldl (fun s o => s.dropLine o ln none excl) s
  let d := Table.get s.dirs ln {}
  let st : DSt := if excl then .u else match d.st with
    | .x o => .p [o]
    | st => st
  { s with dirs := Table.put s.dirs ln { d with st := st } }

/-! ### Soft lines (R187, R188) -/

/-- Write back a core's dirty bytes of a soft line; the copy becomes clean, and the core goes on reading it (R187, R206). A version of
the oldest chunk or of a region is written back early (R143); one of a speculative chunk stays. -/
def State.softBack (s : State) (c ln : Nat) : State :=
  match s.line c ln with
  | some l =>
      if !l.soft || l.sdirty = 0 then s
      else match l.st with
        | .n => (s.commitBytes l.key ln l.sdirty l.full l.data).putLine c ln { l with sdirty := 0, full := 0, dirty := false }
        | _ =>
            if (s.ring (c / 16)).isSpec (slotOf c) then s else (s.writeVersion c ln l).leaveLine c ln false
  | none => s

/-- Before the first versioned write to an ordinary line that is dirty the core writes the line back, so that a discard falls back
on the committed value (R142). A soft line sends its dirty bytes to level two, also from a version that has only been read. Level
two takes the bytes of a coherent line as they are written, so only its dirty bit is left to clear. -/
def State.writeBackFirst (s : State) (c ln : Nat) : State :=
  match s.line c ln with
  | none => s
  | some l =>
      if l.sw != 0 then s
      else if l.soft then
        (s.commitBytes l.key ln l.sdirty l.full l.data).putLine c ln { l with sdirty := 0, full := 0, dirty := false }
      else if l.st == .n then s.putLine c ln { l with dirty := false }
      else s

/-- The soft lines a core holds. -/
def Core.softLines (c : Core) : List Nat := (c.l1.filter (fun e => e.2.soft)).map (·.1)

/-- A core holds a dirty soft line. -/
def Core.softDirty (c : Core) : Bool := c.l1.any (fun e => e.2.soft && e.2.sdirty != 0)

/-- Write back every dirty soft line of a core. (DEDUCED: log 57) -/
def State.softBackAll (s : State) (c : Nat) : State := (s.core c).softLines.foldl (fun s ln => s.softBack c ln) s

/-- Write back and invalidate every soft line of a core. Of a speculative chunk's versions the written words stay, and the others
are fetched again. (DEDUCED: log 62) -/
def State.softInval (s : State) (c : Nat) : State :=
  let s := s.softBackAll c
  let spec := (s.ring (c / 16)).isSpec (slotOf c)
  let t := (s.core c).l1.filter (fun e => !(e.2.soft && (e.2.st == .n || !spec)))
  s.setCore c { s.core c with l1 := t.map (fun e => (e.1, if e.2.soft then { e.2 with present := e.2.present &&& e.2.sw } else e.2)) }

/-- A chunk has read words of soft lines before it wrote them. -/
def Core.readSoft (c : Core) : Bool := c.l1.any (fun e => e.2.soft && e.2.st != .n && e.2.er != 0)

/-- The completion of an acquire, or an acquire fence, of a thread at core `c` (R188, R208, R209): what its later accesses read is not
older. While it is forked, those of its younger chunks come later too: one that has read soft words is squashed, and the soft
lines of every core that runs it are invalidated. (DEDUCED: log 122) -/
def State.softAcquire (s : State) (c : Nat) : State :=
  let r := c / 16
  let g := s.ring r
  if 4096 ≤ c || g.forked.isNone then s.softInval c
  else
    let s := match (g.youngerThan (slotOf c)).find? (fun k => (s.core (coreAt r k.slot)).readSoft) with
      | some k => s.squash r k.slot
      | none => s
    ((List.range 16).map (fun i => 16 * r + i)).foldl State.softInval s

/-! ### Commutative lines (R191, R192) -/

/-- Group bits of cores (R183 C). -/
def groupBits (cs : List Nat) : BitVec 64 := cs.foldl (fun g c => setBit g (c / 64) true) 0

/-- The cores of marked groups. -/
def groupCores (g : BitVec 64) : List Nat := (bitsSet g).flatMap (fun i => (List.range 64).map (fun j => 64 * i + j))

/-- A core registers in an entry under the pointer and coarse rules of R184. -/
def DSt.join (d : DSt) (c : Nat) : DSt :=
  match d with
  | .u => .p [c]
  | .p t => if t.contains c then .p t else if t.length < 4 then .p (t ++ [c]) else .c (groupBits (c :: t))
  | .c g => .c (setBit g (c / 64) true)
  | .x o => .p [o, c]

/-- The cores that an entry names, in ascending order. -/
def DSt.cores (d : DSt) : List Nat :=
  match d with
  | .u => []
  | .p t => (List.range 4096).filter (fun c => t.contains c)
  | .c g => groupCores g
  | .x o => [o]

/-- The partial that a core has, in its cache or held at the home. -/
def State.partialOf (s : State) (ln c : Nat) : Option (BitVec 1024) :=
  match Table.get? (s.core c).partials ln with
  | some p => some p.2
  | none => Table.get? (s.dir ln).held c

/-- Bytes of the halves of a line that some partial has an element in which is not at the identity: combining changes no other. -/
def touchedHalves (f : Nat) (ps : List (BitVec 1024)) : BitVec 128 :=
  let b := cfmtBytes f
  let touched (h : Nat) : Bool := ps.any (fun p =>
    (List.range (64 / b)).any (fun i => lineGet p (64 * h + b * i) b != cfmtId f))
  (if touched 0 then byteMask 0 64 else 0) ||| (if touched 1 then byteMask 64 64 else 0)

/-- The home combines a line and recalls every partial; combining fills no word of a poisoned line. -/
def State.combineLine (s : State) (key ln : Nat) : State :=
  let d := s.dir ln
  if d.contributors = .u then s
  else
    let cs := d.contributors.cores
    let b := cfmtBytes d.cfmt
    let ps := cs.filterMap (fun c => s.partialOf ln c)
    let home := s.levelTwo key ln
    let v := (List.range (128 / b)).foldl (fun v i =>
      linePut v (b * i) b (ps.foldl (fun r p => combine d.cfmt r (lineGet p (b * i) b)) (lineGet home (b * i) b))) home
    let s := s.commitBytes key ln (touchedHalves d.cfmt ps) 0 v
    let s := cs.foldl (fun s c =>
      if (Table.get? (s.core c).partials ln).isNone then s
      else s.setCore c { s.core c with partials := Table.erase (s.core c).partials ln }) s
    s.putDir ln { s.dir ln with contributors := .u, held := [] }

/-! ### The directory (R183–R185) -/

/-- Send messages about a line. -/
def State.sendAll (s : State) (k : MsgKind) (tos : List Nat) (c ln : Nat) : State :=
  { s with msgs := s.msgs ++ tos.map (fun o => { kind := k, to_ := o, for_ := c, line := ln }) }

/-- Data or a grant to the requester, with its acknowledgement count. -/
def State.sendData (s : State) (c ln acks : Nat) (grant : Bool) : State :=
  { s with msgs := s.msgs ++ [{ kind := .data acks grant, to_ := c, for_ := c, line := ln }] }

/-- The home's action on a request, drains aside (R184). -/
def State.homeAct (s : State) (c : Nat) (k : ReqKind) (ln : Nat) : State :=
  let d := s.dir ln
  let go (st : DSt) (s : State) : State := s.putDir ln { s.dir ln with st := st, busy := some (c, k) }
  let pend (own : Bool) (s : State) : State :=
    { s with pends := s.pends ++ [{ core := c, line := ln, own := own }] }
  match k, d.st with
  | .getS, .u => pend false ((go (.p [c]) s).sendData c ln 0 false)
  | .getS, .p _ | .getS, .c _ => pend false ((go (d.st.join c) s).sendData c ln 0 false)
  | .getS, .x o =>
      if o = c then pend false ((go (.x o) s).sendData c ln 0 false)
      else pend false ((go (.p [o, c]) s).sendAll (.fwd false) [o] c ln)
  | .getX, .u | .upg, .u => pend true ((go (.x c) s).sendData c ln 0 false)
  | .getX, .p t =>
      let os := t.filter (· != c)
      pend true (((go (.x c) s).sendAll .inval os c ln).sendData c ln os.length false)
  | .upg, .p t =>
      let os := t.filter (· != c)
      pend true (((go (.x c) s).sendAll .inval os c ln).sendData c ln os.length (t.contains c))
  | .getX, .c g | .upg, .c g =>
      let os := (groupCores g).filter (· != c)
      pend true (((go (.x c) s).sendAll .inval os c ln).sendData c ln os.length false)
  | .getX, .x o | .upg, .x o =>
      if o = c then pend true ((go (.x c) s).sendData c ln 0 true)
      else pend true ((go (.x c) s).sendAll (.fwd true) [o] c ln)
  | .putS, .p t =>
      let t' := t.filter (· != c)
      s.putDir ln { d with st := if t'.isEmpty then .u else .p t' }
  | .putX, .x o => if o = c then s.putDir ln { d with st := .u } else s
  | .putS, _ | .putX, _ => s

/-- A put: the eviction notice of a shared copy, or the write-back of an owned line. -/
def ReqKind.isPut (k : ReqKind) : Bool :=
  match k with
  | .putS | .putX => true
  | _ => false

/-- The home serves a request: recorded cores are drained first (R188, R217), and contributions are combined (R192). -/
def State.homeServe (s : State) (c : Nat) (k : ReqKind) (ln : Nat) : State :=
  if k.isPut then s.homeAct c k ln
  else
    let s := s.combineLine (s.dir ln).ckey ln
    let d := s.dir ln
    let recs := (d.records.filter (· != c)).eraseDups
    if recs.isEmpty then s.homeAct c k ln
    else (s.putDir ln { d with busy := some (c, k) }).sendAll .drain recs c ln

/-- A put that crosses what the home has sent is absorbed (R185): a notice while the line's invalidations are outstanding, a
write-back while a forward to its core is. -/
def State.absorbs (s : State) (c : Nat) (k : ReqKind) (ln : Nat) : Bool :=
  match k with
  | .putS => s.msgs.any (fun m => m.line == ln && (m.kind == .inval || m.kind == .ack))
  | .putX => s.msgs.any (fun m => m.line == ln && m.to_ == c && (m.kind == .fwd true || m.kind == .fwd false))
  | _ => false

/-- A request arrives at the home: it is served, absorbed, or waits its turn (R184, R185). -/
def State.homeRequest (s : State) (c : Nat) (k : ReqKind) (ln : Nat) : State :=
  let d := s.dir ln
  if d.busy.isNone then s.homeServe c k ln
  else if s.absorbs c k ln then s
  else s.putDir ln { d with queue := d.queue ++ [(c, k)] }

/-- The home goes on to the requests that wait: a put is served at once, and the next one after it. -/
def State.serveNext (s : State) (ln : Nat) : List (Nat × ReqKind) → State
  | [] => s.putDir ln { s.dir ln with busy := none, queue := [] }
  | (c, k) :: q =>
      let s := (s.putDir ln { s.dir ln with busy := none, queue := q }).homeServe c k ln
      if k.isPut then State.serveNext s ln q else s

/-- The home goes on to the next waiting request. -/
def State.homeNext (s : State) (ln : Nat) : State := s.serveNext ln (s.dir ln).queue

/-- A requester installs a line, or gains ownership of it. -/
def State.install (s : State) (c ln : Nat) (own : Bool) : State :=
  let l := (s.line c ln).getD {}
  s.putLine c ln { l with coh := if own then .own else if l.coh == .own then .own else .sh }

/-- A requester's progress on a line. -/
def State.progress (s : State) (c ln : Nat) (f : Pend → Pend) : State :=
  match s.pends.find? (fun p => p.core == c && p.line == ln) with
  | none => s
  | some p =>
      let p := f p
      let rest := s.pends.filter (fun p => !(p.core == c && p.line == ln))
      if p.got && p.need == some p.have_ then (({ s with pends := rest }).install c ln p.own).homeNext ln
      else { s with pends := rest ++ [p] }

/-- Deliver one message of the protocol at its receiver (R184, R185, R188). -/
def State.deliverMsg (s : State) (m : Msg) : State :=
  match m.kind with
  | .data n _ => s.progress m.for_ m.line (fun p => { p with got := true, need := some n })
  | .ack => s.progress m.for_ m.line (fun p => { p with have_ := p.have_ + 1 })
  | .inval => (s.dropLine m.to_ m.line (some m.for_) true).sendAll .ack [m.to_] m.for_ m.line
  | .fwd x => (s.dropLine m.to_ m.line (some m.for_) x).sendData m.for_ m.line 0 false
  | .drain => (s.softBackAll m.to_).sendAll .drainAck [m.to_] m.for_ m.line
  | .drainAck =>
      let d := s.dir m.line
      let d := { d with records := d.records.erase m.to_ }
      let s := s.putDir m.line d
      if s.msgs.any (fun n => n.line == m.line && (n.kind == .drain || n.kind == .drainAck)) then s
      else match d.busy with
        | some (c, k) => s.homeAct c k m.line
        | none => s

/-- Take out the first message that satisfies a test. -/
def State.takeMsg (s : State) (f : Msg → Bool) : Option (Msg × State) :=
  match s.msgs.find? f with
  | none => none
  | some m => some (m, { s with msgs := s.msgs.erase m })

/-- Deliver the messages of a line until none is left. -/
def State.settle (s : State) (ln : Nat) : Nat → State
  | 0 => s
  | n + 1 =>
      match s.takeMsg (fun m => m.line == ln) with
      | none => s
      | some (m, s) => State.settle (s.deliverMsg m) ln n

/-- Enough deliveries for any request: an invalidation and an acknowledgement for every core, and a drain. -/
def settleFuel : Nat := 16384

/-- A core obtains a shared copy or ownership of a tracked line. -/
def State.obtain (s : State) (c ln : Nat) (own : Bool) (fl : Flags := {}) : State :=
  let coh := ((s.line c ln).getD {}).coh
  if coh == .own || (coh == .sh && !own) then s
  else
    let s := (s.missTo c ln fl).settle ln settleFuel
    let k : ReqKind := if !own then .getS else if coh == .sh then .upg else .getX
    (s.homeRequest c k ln).settle ln settleFuel

/-! ### Room in the level-one cache (R151, R152) -/

/-- The lines of one set: 64 sets of eight ways. -/
def Core.setOf (c : Core) (ln : Nat) : Table Line := c.l1.filter (fun e => e.1 % 64 == ln % 64)

/-- Evict an ordinary line. (DESIGN CHOICE: log 31) -/
def State.evictN (s : State) (c ln : Nat) : State :=
  match s.line c ln with
  | none => s
  | some l =>
      if l.soft then (s.softBack c ln).eraseLine c ln
      else
        let s := s.eraseLine c ln
        match l.coh with
        | .own => s.homeRequest c .putX ln
        | .sh => s.homeRequest c .putS ln
        | .inv => s

/-- Make room for a line: an ordinary line goes first, chosen freely; else a version of the oldest chunk or of a region
is written back; a speculative chunk's versions are never evicted, and none is answered. (DESIGN CHOICE: log 31) -/
def State.room (s : State) (c ln : Nat) : Option State :=
  let set := (s.core c).setOf ln
  if set.length < 8 || set.any (fun e => e.1 == ln) then some s
  else
    let ns := set.filter (fun e => e.2.st == .n)
    match ns[Config.freeNat s.free % ns.length]? with
    | some e => some (s.drew.evictN c e.1)
    | none =>
        match ns with
        | e :: _ => some (s.evictN c e.1)
        | [] =>
            if (s.ring (c / 16)).isSpec (slotOf c) then none
            else match set with
              | e :: _ => some (((s.writeVersion c e.1 e.2).leaveLine c e.1 false).evictN c e.1)
              | [] => some s

/-! ### Contributions (R191) -/

/-- A partial line with every element at the identity. -/
def identityLine (f : Nat) : BitVec 1024 :=
  let b := cfmtBytes f
  (List.range (128 / b)).foldl (fun v i => linePut v (b * i) b (cfmtId f)) 0

/-- A core contributes a value to an element of a commutative line (R191). -/
def State.contribute (s : State) (c key f ln o v : Nat) : State :=
  let s :=
    if (Table.get? (s.core c).partials ln).isSome then s
    else
      let d := s.dir ln
      match Table.get? d.held c with
      | some p =>
          let t := Table.put (s.core c).partials ln (f, p)
          (s.putDir ln { d with held := Table.erase d.held c }).setCore c { s.core c with partials := t }
      | none =>
          let s := (s.missTo c ln {}).recall ln true
          let d := s.dir ln
          let s := s.putDir ln { d with contributors := d.contributors.join c, cfmt := f, ckey := key }
          let t := Table.put (s.core c).partials ln (f, identityLine f)
          s.setCore c { s.core c with partials := t }
  let b := cfmtBytes f
  match Table.get? (s.core c).partials ln with
  | none => s
  | some (_, p) =>
      let t := Table.put (s.core c).partials ln (f, linePut p o b (combine f (lineGet p o b) v))
      s.setCore c { s.core c with partials := t }

/-- Packets of a key from one node to another meet the membership tables at the ports of both ends (R54, R55): the first port that
bars one counts the drop. -/
def State.barredOn (s : State) (key : Nat) (legs : List (Nat × Nat)) : Option State :=
  ((legs.filter (fun l => l.1 != l.2)).findSome? (fun l => [l.1, l.2].find? (fun n => !s.memberN n key))).map
    (fun n => s.dropAt n key)

/-- A miss, and what its home asks of memory (R42), meet the tables; parties past the cores have no port. -/
def State.barredAt (s : State) (key core origin ln : Nat) : Option State :=
  if 4096 ≤ origin || (s.line core ln).isSome then none
  else s.barredOn key ((nodeOf origin, s.missNode origin ln) :: s.memoryLeg ln)

/-- The key of the thread that a core of a ring works for. -/
def State.threadKey (s : State) (c : Nat) : Nat :=
  match (s.ring (c / 16)).thread with
  | some t => t.key
  | none => 0

/-- What the contributions held for a core wait for: the host holds the bytes of one (R79, R82). -/
def State.contribNeed (s : State) (c : Nat) : Option Wait × State :=
  (s.core c).contribs.foldl (fun r e =>
    let a := r.2.available (if e.key = 4096 then 3 else 0) e.pa (cfmtBytes e.fmt) true
    (r.1.or a.1, a.2)) (none, s)

/-- The contributions held for the chunk of core `c` join its partials (R143, R153); one that the membership tables bar is denied
(R56). (DEDUCED: log 52) -/
def State.flushContribs (s : State) (c : Nat) : State :=
  let key := s.threadKey c
  let s := (s.core c).contribs.foldl (fun s e =>
    match (if (Table.get? (s.core c).partials (e.pa / 128)).isSome then none else s.barredAt key c c (e.pa / 128)) with
    | some s => s.deniedRecord c key e.pc { cause := 9, acc := 3, va := e.va, pa := e.pa, elem := e.elem }
    | none => s.contribute c e.key e.fmt (e.pa / 128) (e.pa % 128) e.val) s
  s.setCore c { s.core c with contribs := [] }

/-- They join once nothing keeps them waiting. -/
def State.joinContribs (s : State) (c : Nat) : State :=
  let r := s.contribNeed c
  if r.1.isSome then r.2 else r.2.flushContribs c

/-! ### Independent lines (R174) -/

/-- Home and class that a mapping gives a line, as one number. -/
def State.homeCode (s : State) (l : Leaf) (pa : Nat) : Nat := 4 * s.home l pa + l.cls

/-- A line is cached: a core holds it, or its home has it in hand. -/
def State.cached (s : State) (ln : Nat) : Bool :=
  let d := s.dir ln
  s.cores.any (fun e => (Table.get? e.2.l1 ln).isSome || (Table.get? e.2.partials ln).isSome) ||
    d.busy.isSome || !d.records.isEmpty || d.contributors != .u || !d.held.isEmpty

/-- Where an independent line stands (R174). (DEDUCED: log 93) -/
def aliasOf (pa code : Nat) : Nat := pa + 2 ^ 80 * (code + 1)

/-- Where memory keeps a line while homes hold it as several independent lines. (DEDUCED: log 93) -/
def memoryLine (ln : Nat) : Nat := aliasOf (128 * ln) (2 ^ 15) / 128

/-- An entry of a table follows another's. -/
def Table.follow {α : Type} (t : Table α) (a b : Nat) : Table α :=
  match Table.get? t a with
  | some v => Table.put t b v
  | none => Table.erase t b

/-- One line takes the contents of another: its bytes, their key and their poison. -/
def State.copyLine (s : State) (a b : Nat) : State :=
  { s with mem := Memory.writeN s.mem (128 * b) 128 (Memory.readN s.mem (128 * a) 128)
           lineKeys := Table.follow s.lineKeys a b, poison := Table.follow s.poison a b }

/-- A line is no more. -/
def State.clearLine (s : State) (ln : Nat) : State :=
  { s with mem := Memory.writeN s.mem (128 * ln) 128 0, lineKeys := Table.erase s.lineKeys ln, poison := Table.erase s.poison ln }

/-- An independent line begins with what memory holds (R174). -/
def State.fillAlias (s : State) (pa code : Nat) : State :=
  let ln := pa / 128
  let to_ := aliasOf (128 * ln) code / 128
  let s := if (Table.get? s.splits ln).isSome then s
    else ({ s with splits := Table.put s.splits ln [] }).copyLine ln (memoryLine ln)
  { s.copyLine (memoryLine ln) to_ with lineHomes := Table.put s.lineHomes to_ code }

/-- The independent lines of a line of memory that homes hold, but for the one under its own number. -/
def State.aliases (s : State) (ln : Nat) : List Nat :=
  (s.lineHomes.filter (fun e => e.1 != ln && realLine e.1 == ln)).map (·.1)

/-- A home lets go of one of several independent lines, of whose copies none is left: memory takes what it has written there, and once
no home holds the line under its own number, that number stands for memory again (R174). (DEDUCED: log 93) -/
def State.leaveHome (s : State) (line : Nat) : State :=
  let ln := realLine line
  match Table.get? s.splits ln with
  | none => { s with lineHomes := Table.erase s.lineHomes line }
  | some ds =>
      let s := if ds.contains line then s.copyLine line (memoryLine ln) else s
      let s := if line = ln then s else { s.clearLine line with dirs := Table.erase s.dirs line }
      let s := { s with lineHomes := Table.erase s.lineHomes line, splits := Table.put s.splits ln (ds.filter (· != line)) }
      if (Table.get? s.lineHomes ln).isSome then s
      else
        let s := (s.copyLine (memoryLine ln) ln).clearTag ln
        if !(s.aliases ln).isEmpty then s
        else { s.clearLine (memoryLine ln) with splits := Table.erase s.splits ln }

/-- The host reaches a line of memory: every home has let go of its independent lines of it first (R79, R82). -/
def State.joinHomes (s : State) (ln : Nat) : State :=
  if (Table.get? s.splits ln).isNone then s
  else (s.aliases ln ++ [ln]).foldl (fun s k => ((s.combineLine (s.dir k).ckey k).recall k true).leaveHome k) s

/-- The address under which a mapping reaches a line: its own, or, while the line is cached under another home or class, that
of a line independent of it (R174, R181). (DEDUCED: log 93) -/
def State.mapLine (s : State) (l : Leaf) (pa : Nat) : Nat × State :=
  let ln := pa / 128
  let code := s.homeCode l pa
  let take (s : State) : State := { s with lineHomes := Table.put s.lineHomes ln code }
  match Table.get? s.lineHomes ln with
  | none =>
      if (Table.get? s.lineHomes (aliasOf pa code / 128)).isSome then (aliasOf pa code, s) else (pa, take s)
  | some k =>
      if k = code then (pa, s)
      else if (Table.get? s.lineHomes (aliasOf pa code / 128)).isSome then (aliasOf pa code, s)
      else if s.cached ln then (aliasOf pa code, s.fillAlias pa code)
      else (pa, take (s.leaveHome ln))

/-! ### Loads and stores of cached memory -/

/-- What an access to memory answers. -/
inductive Mem where
  /-- It is performed, with a value. -/
  | ok (v : Nat) (s : State)
  /-- It waits, and its instruction is executed again. -/
  | wait (w : Wait) (s : State)
  /-- It meets poison or another detected error (R249). -/
  | err (s : State)
  deriving DecidableEq, Repr

/-- How the accesses of a core are versioned (R143). -/
inductive Ver where
  | plain
  | chunk (tag : Nat)
  | region (d : Nat)
  deriving DecidableEq, Repr

/-- The version that a core's accesses make now: none in handler mode (R226). -/
def State.ver (s : State) (c : Nat) : Ver :=
  let k := s.core c
  if k.handler then .plain
  else match (s.ring (c / 16)).chunkAt (slotOf c) with
    | some h => .chunk (h.num.toNat % 32)
    | none => if k.depth = 0 then .plain else .region k.depth

/-- A speculative chunk overflows (R152). -/
def State.overflows (s : State) (c : Nat) : Mem :=
  let g := s.ring (c / 16)
  .wait .overflow (s.setRing (c / 16) { g with nov := min (g.nov + 1) 0xFFFF })

/-- The nearest older version of a word (R145), and whether it stands over poisoned data. (DEDUCED: log 94) -/
def State.lookBack (s : State) (c ln i : Nat) : Option (Nat × Bool) :=
  ((s.ring (c / 16)).olderThan (slotOf c)).findSome? (fun k =>
    match s.line (coreAt (c / 16) k.slot) ln with
    | some l => if l.sw.getLsbD i then some (lineWord l.data i, l.bad.getLsbD i) else none
    | none => none)

/-- Begin to hold a version of a line; a soft copy holds every word that no older version has written (R187). -/
def State.version (s : State) (c ln : Nat) (st : LState) (va key : Nat) (soft : Bool) : Line :=
  let l := (s.line c ln).getD {}
  match l.st with
  | .n =>
      let older := (List.range 16).foldl (fun m i => setBit m i (s.lookBack c ln i).isSome) (0 : BitVec 16)
      { l with st := st, va := va, key := key, soft := soft, sw := 0, er := 0, rel := none,
               present := if l.soft then ~~~older ||| dirtyWords l.sdirty else 0,
               bad := if l.soft then s.poisoned ln &&& ~~~l.full else 0 }
  | _ => l

/-- A word from outside under the bytes that a line has written. -/
def Line.under (l : Line) (i v : Nat) : BitVec 1024 :=
  (List.range 8).foldl (fun d b =>
    if l.sdirty.getLsbD (8 * i + b) then d else linePut d (8 * i + b) 1 (fld v (8 * b) 8)) l.data

/-- A chunk has read words of a soft line from level two: a younger chunk that read another value before is squashed, and
other copies in the ring are dropped, so that the thread reads no newer value before an older one (R205). -/
def State.readAfter (s : State) (c ln : Nat) (words : BitVec 16) : State :=
  let r := c / 16
  let d := ((s.line c ln).getD {}).data
  let differs (l : Line) : Bool :=
    (bitsSet (words &&& l.er)).any (fun i => lineWord l.data i != lineWord d i)
  let s := match ((s.ring r).youngerThan (slotOf c)).find? (fun k => match s.line (coreAt r k.slot) ln with
      | some l => l.soft && differs l
      | none => false) with
    | some k => s.squash r k.slot
    | none => s
  (List.range 16).foldl (fun s i =>
    let o := 16 * r + i
    match s.line o ln with
    | some l => if o != c && l.soft && l.st == .n && l.sdirty == 0 then s.eraseLine o ln else s
    | none => s) s

/-- Fill the absent words of a chunk's version from look-back, else from level two; a word over poisoned data is marked. A soft line
that level two sends is installed whole, at one moment (R187, R203). (DEDUCED: log 94) -/
def State.fillWords (s : State) (c ln key : Nat) (need : BitVec 16) (fl : Flags) : State :=
  match s.line c ln with
  | none => s
  | some l =>
      let absent := need &&& ~~~l.present
      if absent = 0 then s
      else
        let fromTwo := (bitsSet absent).any (fun i => (s.lookBack c ln i).isNone)
        let absent := if l.soft && fromTwo then ~~~l.present else absent
        let found := (bitsSet absent).map (fun i => (i, s.lookBack c ln i))
        let s := if fromTwo && !l.soft then s.obtain c ln false fl else if fromTwo then s.missTo c ln fl else s
        let two := s.levelTwo key ln
        match s.line c ln with
        | none => s
        | some l =>
            let l := found.foldl (fun (l : Line) e =>
              let w := e.2.getD (lineWord two e.1, s.poisonAt ln (wordsOf (8 * e.1) 8))
              { l with data := l.under e.1 w.1, bad := setBit l.bad e.1 (w.2 && !l.full.getLsbD e.1) }) l
            let s := s.putLine c ln { l with present := l.present ||| absent }
            if l.soft && fromTwo then s.readAfter c ln absent else s

/-- What a load of a line is about to touch. -/
structure At where
  core : Nat
  key : Nat
  cls : Nat
  cfmt : Nat
  tier : Nat
  pa : Nat
  va : Nat
  /-- Its release, acquire and freshness flags and scope. -/
  fl : Flags := {}
  /-- The operation of an atomic. -/
  atom : Option AtomOp := none
  deriving DecidableEq, Repr

/-- The line number of an access. -/
def At.ln (a : At) : Nat := a.pa / 128

/-- Offset in the line. -/
def At.off (a : At) : Nat := a.pa % 128

/-- What an access to level two asks for: its bytes. What combining a commutative line writes has been let go of when the
contributions were made, and every request of the host combines it first (R79, R82, R192). -/
def State.ask (s : State) (a : At) (n : Nat) (write : Bool) : Option Wait × State := s.available a.tier a.pa n write

/-- A speculation-free load, or one in a region whose line is no version (R143, R187, R192). A copy of the level-one cache
is hit only where the host has let go of the bytes (R79, R82). -/
def State.loadPlain (s : State) (a : At) (n : Nat) (fresh : Bool) : Mem :=
  let c := a.core
  let soft := a.cls == 1
  match s.line c a.ln with
  | some l =>
      if soft && l.st == .n && l.soft && !fresh then
        (if s.poisonAt a.ln (wordsOf a.off n &&& ~~~l.full) then .err s else .ok (lineGet l.data a.off n) s)
      else if !soft && l.coh != .inv then
        (match s.available a.tier a.pa n false with
         | (some w, s) => .wait w s
         | (none, s) =>
             if s.poisonAt a.ln (wordsOf a.off n) then .err s else .ok (s.physRead (s.matK a.key) a.pa n) s)
      else miss s
  | none => miss s
where
  /-- A miss. -/
  miss (s : State) : Mem :=
    match (if a.cls == 1 then s.availableLine a.tier a.pa n false else s.ask a n false) with
    | (some w, s) => .wait w s
    | (none, s) =>
        match s.room a.core a.ln with
        | none => s.overflows a.core
        | some s =>
            if a.cls == 1 then
              let s := s.missTo a.core a.ln { a.fl with fresh := fresh }
              let old := (s.line a.core a.ln).getD {}
              let d := overlay (s.levelTwo a.key a.ln) old.sdirty old.data
              let l : Line := { old with soft := true, data := d, va := a.va, key := a.key }
              let s := s.putLine a.core a.ln l
              if s.poisonAt a.ln (wordsOf a.off n &&& ~~~l.full) then .err s else .ok (lineGet d a.off n) s
            else
              let s := if a.cls == 2 then s.combineLine a.key a.ln else s
              let s := s.obtain a.core a.ln false { a.fl with fresh := fresh }
              if s.poisonAt a.ln (wordsOf a.off n) then .err s
              else .ok (s.physRead (s.matK a.key) a.pa n) s

/-- The chunk of a core holds contributions to a line. -/
def State.contributes (s : State) (a : At) : Bool := (s.core a.core).contribs.any (fun e => e.pa / 128 == a.ln)

/-- Before a load or store of a commutative line by a chunk, or by the handler that interrupts it, the chunk's own contributions to the
line take effect (R201, R218): the oldest chunk's join its partials, and a speculative chunk stalls until it is the oldest. -/
def State.contribsFirst (s : State) (a : At) (k : State → Mem) : Mem :=
  if !s.contributes a then k s
  else if (s.ring (a.core / 16)).isSpec (slotOf a.core) then .wait .commitPoint s
  else match s.contribNeed a.core with
    | (some w, s) => .wait w s
    | (none, s) => k ((s.unrepairableAt a.core).flushContribs a.core)

/-- A line that the core holds as another key's mapping deciphers it is no copy for this one (R174): what was written there goes to level
two first, and the access misses. A speculative chunk's version keeps it waiting until the chunk is the oldest. -/
def State.keyFirst (s : State) (a : At) (k : State → Mem) : Mem :=
  match s.line a.core a.ln with
  | none => k s
  | some l =>
      if (l.st == .n && !l.soft) || s.matK l.key = s.matK a.key then k s
      else if l.st == .n then k ((s.softBack a.core a.ln).eraseLine a.core a.ln)
      else if (s.ring (a.core / 16)).isSpec (slotOf a.core) then .wait .commitPoint s
      else k ((s.writeVersion a.core a.ln l).eraseLine a.core a.ln)

/-- A load by a chunk (R143, R145); `.fr` takes again every word of a soft line that it has not written (R187). -/
def State.loadChunk (s : State) (tag : Nat) (a : At) (n : Nat) (fresh : Bool) : Mem :=
  let c := a.core
  let soft := a.cls == 1
  let need := wordsOf a.off n
  let l0 := s.version c a.ln (.s tag) a.va a.key soft
  let l0 := if fresh && soft then { l0 with present := 0 } else l0
  let needTwo := (bitsSet (need &&& ~~~l0.present)).any (fun i => (s.lookBack c a.ln i).isNone)
  match (if !needTwo then (none, s) else if soft then s.availableLine a.tier a.pa n false else s.ask a n false) with
  | (some w, s) => .wait w s
  | (none, s) =>
      match s.room c a.ln with
      | none => s.overflows c
      | some s =>
          let s := if a.cls == 2 && l0.coh == LCoh.inv then s.combineLine a.key a.ln else s
          let s := (s.putLine c a.ln { l0 with er := l0.er ||| (need &&& ~~~l0.sw) }).fillWords c a.ln a.key need
            { a.fl with fresh := fresh }
          let l := (s.line c a.ln).getD {}
          if l.bad &&& need ≠ 0 then .err s else .ok (lineGet l.data a.off n) s

/-- A load of a region's version; `.fr` of a soft line fetches it again under the bytes written (R187). -/
def State.loadRegion (s : State) (a : At) (n : Nat) (fresh : Bool) (l : Line) : Mem :=
  match (if fresh && l.soft then s.availableLine a.tier a.pa n false else (none, s)) with
  | (some w, s) => .wait w s
  | (none, s) =>
      let two := s.levelTwo l.key a.ln
      let l' := if fresh && l.soft then
          (List.range 16).foldl (fun (l : Line) i => { l with data := l.under i (lineWord two i) }) l
        else l
      let s := if fresh && l.soft then (s.missTo a.core a.ln { a.fl with fresh := true }).putLine a.core a.ln l' else s
      if s.poisonAt a.ln (wordsOf a.off n &&& ~~~l'.full) then .err s else .ok (lineGet l'.data a.off n) s

/-- A load of cached memory. -/
def State.loadLine (s : State) (a : At) (n : Nat) (fresh : Bool) : Mem :=
  s.contribsFirst a (fun s => s.keyFirst a (fun s => match s.ver a.core with
  | .chunk tag => s.loadChunk tag a n fresh
  | .region _ =>
      (match s.line a.core a.ln with
       | some l =>
           (match l.st with
            | .g _ => s.loadRegion a n fresh l
            | _ => s.loadPlain a n fresh)
       | none => s.loadPlain a n fresh)
  | .plain =>
      (match s.line a.core a.ln with
       | some l => if l.st == .n then s.loadPlain a n fresh
           else ((s.writeVersion a.core a.ln l).leaveLine a.core a.ln false).loadPlain a n fresh
       | none => s.loadPlain a n fresh)))

/-- Queue the broadcast of a store on the forwarding path (R146). (DEDUCED: log 105) -/
def State.broadcast (s : State) (c line off n v : Nat) (scratch : Bool) : State :=
  let r := c / 16
  match (s.ring r).nextAfter (slotOf c) with
  | none => s
  | some k =>
      let g := s.ring r
      let b : Bcast := { from_ := slotOf c, next := k.slot.val, line := line, off := off, data := bytesOf n v,
                         scratch := scratch }
      (s.setRing r { g with bcasts := g.bcasts ++ [b] }).after (.storeBroadcastArrival (Fin.ofNat 256 r))

/-- Put bytes into a line; `full` marks the words filled (R251). -/
def Line.write (l : Line) (o n v : Nat) (full : BitVec 16) : Line :=
  { l with data := linePut l.data o n v, sdirty := l.sdirty ||| byteMask o n, full := l.full ||| full, bad := l.bad &&& ~~~full,
           sw := l.sw ||| wordsOf o n, present := l.present ||| wordsOf o n, dirty := true, rel := none }

/-- Write bytes into a line that a core holds. -/
def State.writeLine (s : State) (a : At) (n v : Nat) (l : Line) : State :=
  let f := s.cover a.core a.ln (byteMask a.off n)
  f.2.putLine a.core a.ln (l.write a.off n v f.1)

/-- A plain store (R143, R187, R192). -/
def State.storePlain (s : State) (a : At) (n v : Nat) : Mem :=
  let c := a.core
  if a.cls == 1 then
    let old := s.line c a.ln
    match (if old.isSome then s.available a.tier a.pa n true else s.availableLine a.tier a.pa n true) with
    | (some w, s) => .wait w s
    | (none, s) =>
        match s.room c a.ln with
        | none => s.overflows c
        | some s =>
            let s := if old.isSome then s else s.missTo c a.ln a.fl
            let l := old.getD { data := s.levelTwo a.key a.ln }
            let s := s.writeLine a n v { l with soft := true, va := a.va, key := a.key }
            let l := (s.line c a.ln).getD {}
            .ok 0 (s.putLine c a.ln { l with sw := 0, present := 0 })
  else
    match s.ask a n true with
    | (some w, s) => .wait w s
    | (none, s) =>
        match s.room c a.ln with
        | none => s.overflows c
        | some s =>
            let s := if a.cls == 2 then s.combineLine a.key a.ln else s
            let s := s.obtain c a.ln true a.fl
            let l := (s.line c a.ln).getD {}
            .ok 0 ((s.putLine c a.ln { l with dirty := true }).storeBytes c a.key a.ln a.off n v)

/-- Words of which bytes `o` to `o + n - 1` are only a part. -/
def partWords (o n : Nat) : BitVec 16 := wordsOf o n &&& ~~~(fullWords (byteMask o n))

/-- A store by a chunk (R142, R143, R146, R186): ownership is requested at the first write of a line. A store of a part of a word also
reads the word, so that what the chunk holds of it is what sequential execution would (R162). (DEDUCED: log 52, 55) -/
def State.storeChunk (s : State) (tag : Nat) (a : At) (n v : Nat) : Mem :=
  let c := a.core
  let l0 := (s.line c a.ln).getD {}
  let part := partWords a.off n
  match (if a.cls == 1 && part != 0 then s.availableLine a.tier a.pa n true else s.ask a n true) with
  | (some w, s) => .wait w s
  | (none, s) =>
      match s.room c a.ln with
      | none => s.overflows c
      | some s =>
          let s := if a.cls == 2 && l0.coh == LCoh.inv then s.combineLine a.key a.ln else s
          let s := s.writeBackFirst c a.ln
          let s := s.putLine c a.ln (s.version c a.ln (.s tag) a.va a.key (a.cls == 1))
          let s := if l0.sw = 0 && a.cls != 1 then s.obtain c a.ln true a.fl else s
          let s := s.fillWords c a.ln a.key part a.fl
          let l := (s.line c a.ln).getD {}
          .ok 0 ((s.writeLine a n v { l with er := l.er ||| (part &&& ~~~l.sw) }).broadcast c a.ln a.off n v false)

/-- A store in a recovery region (R142, R143). -/
def State.storeRegion (s : State) (d : Nat) (a : At) (n v : Nat) : Mem :=
  let c := a.core
  let l0 := (s.line c a.ln).getD {}
  match (if l0.st == LState.n then
      (if a.cls == 2 then s.available a.tier (128 * a.ln) 128 true else s.availableLine a.tier a.pa n true)
    else s.available a.tier a.pa n true) with
  | (some w, s) => .wait w s
  | (none, s) =>
      match s.room c a.ln with
      | none => s.overflows c
      | some s =>
          let s := if a.cls == 2 && l0.coh == LCoh.inv then s.combineLine a.key a.ln else s
          let s := if a.cls != 1 then s.obtain c a.ln true a.fl
            else if (s.line c a.ln).isNone then s.missTo c a.ln a.fl else s
          let s := s.writeBackFirst c a.ln
          let l := (s.line c a.ln).getD {}
          match l.st with
          | .g e =>
              let s := if e < d then s.logLine c l.va e l.sw l.data else s
              .ok 0 (s.writeLine a n v { l with st := if e < d then .g d else .g e })
          | _ =>
              let data := if l.soft then l.data else s.levelTwo a.key a.ln
              let l : Line := { l with st := .g d, va := a.va, key := a.key, soft := a.cls == 1, data := data,
                                       sdirty := 0, full := 0, bad := 0, sw := 0, er := 0, present := BitVec.allOnes 16 }
              .ok 0 (s.writeLine a n v l)

/-- A store to cached memory. (DEDUCED: log 105) -/
def State.storeLine (s : State) (a : At) (n v : Nat) : Mem :=
  s.contribsFirst a (fun s => s.keyFirst a (fun s => match s.ver a.core with
  | .chunk tag => s.storeChunk tag a n v
  | .region d => s.storeRegion d a n v
  | .plain =>
      match s.line a.core a.ln with
      | some l => if l.st == .n then s.storePlain a n v
          else ((s.writeVersion a.core a.ln l).leaveLine a.core a.ln true).storePlain a n v
      | none => s.storePlain a n v))

/-- A read-modify-write of cached memory, performed at the owner or, for a soft line, at its home (R187, R213). It is a
commit point, so the core holds no speculative version; a version it holds becomes committed data first. The oldest chunk's
write is broadcast forward (R146). -/
def State.atomicLine (s : State) (a : At) (n : Nat) (f : Nat → Option Nat) : Mem :=
  let c := a.core
  s.keyFirst a (fun s => match s.available a.tier a.pa n true with
  | (some w, s) => .wait w s
  | (none, s) =>
      let s := match s.line c a.ln with
        | some l => if l.st == LState.n then s else (s.writeVersion c a.ln l).leaveLine c a.ln false
        | none => s
      let s := if a.cls == 1 then (s.softBack c a.ln).eraseLine c a.ln
        else match s.room c a.ln with
          | some s => s.obtain c a.ln true a.fl
          | none => s.obtain c a.ln true a.fl
      if s.poisonAt a.ln (wordsOf a.off n) then .err s
      else
        let old := s.physRead (s.matK a.key) a.pa n
        let s := if a.cls == 1 then s.request c (s.missNode c a.ln)
            { kind := 3, size := n, addr := a.pa % 2 ^ 80, fl := a.fl, atom := a.atom, result := bytesOf n old }
          else s
        match f old with
        | none => .ok old s
        | some v =>
            let s := s.storeBytes c a.key a.ln a.off n v
            let s := match s.line c a.ln with
              | some l => if a.cls == 1 then s else s.putLine c a.ln { l with dirty := true }
              | none => s
            .ok old (match s.ver c with
              | .chunk _ => s.broadcast c a.ln a.off n v false
              | _ => s))

/-! ### The table walker (R168, R175) -/

/-- The walker of core `c` reads a table word through the coherent path: the host lets go of it (R82), and a version of it becomes
committed data or is squashed (R143). What a speculative chunk has written itself keeps it waiting until the chunk is the
oldest. -/
def State.tableReady (s : State) (c pa : Nat) : Option Wait × State :=
  let ln := pa / 128
  match (s.dir ln).st with
  | .x o =>
      if ((s.line o ln).getD {}).st == .n then s.available 0 pa 8 false
      else if o = c && (s.ring (c / 16)).isSpec (slotOf c) then (some .commitPoint, s)
      else
        let s := s.dropLine o ln none false
        (s.putDir ln { s.dir ln with st := .p [o] }).available 0 pa 8 false
  | _ => s.available 0 pa 8 false

/-- The words that a walk from a table at level 3 to 0 reads may be read. -/
def State.tablesReady (s : State) (c va : Nat) : Nat → Nat → Option Wait × State
  | lvl, tbl =>
      let a := tbl + 16 * fld va (12 + 9 * lvl) 9
      match s.tableReady c a with
      | (some w, s) => (some w, s)
      | (none, s) =>
          match s.tableWord a with
          | none => (none, s)
          | some w =>
              if !natBit w 0 then (none, s)
              else match lvl with
                | 0 => if natBit w 6 then s.tableReady c (tbl + 16 * (fld va 12 9 / 16 * 16)) else (none, s)
                | l + 1 => if natBit w 1 then (none, s) else State.tablesReady s c va l (fld w 13 39 * 8192)
  termination_by structural lvl => lvl

/-- What a translation by core `c` waits for, none when a TLB serves it or its walk may go on. -/
def State.walkNeed (s : State) (c key va : Nat) : Option Wait × State :=
  if 2 ^ 57 ≤ va % 2 ^ 64 || (tlbFind (s.core c).tlb key va).isSome || (tlbFind (Table.get s.tlb2 (c / 128) []) key va).isSome
  then (none, s)
  else match s.rootOf key with
    | none => (none, s)
    | some root =>
        let a := root + 8 * fld va 48 9
        match s.tableReady c a with
        | (some w, s) => (some w, s)
        | (none, s) =>
            match s.tableWord a with
            | none => (none, s)
            | some w => if natBit w 0 && !natBit w 1 then s.tablesReady c va 3 (fld w 13 39 * 8192) else (none, s)

end Sys2Proof.Machine
end

