-- ==== Sys2Proof/Machine/Errors.lean ====
section
/-! DEFINITION. Detected errors (R249): repair by squash (R158), rollback of a recovery region (R259), or the end of the
thread. -/

namespace Sys2Proof.Machine

open Sys2Proof

/-- Abort the thread of a core's ring with an error log code (R233, R249). -/
def State.abortCode (s : State) (c code : Nat) (detail : List Word) : State :=
  let key := match (s.ring (c / 16)).thread with
    | some t => t.key
    | none => 0
  let s := s.log (entry key c code 0 3 0 detail)
  match (s.ring (c / 16)).thread with
  | some t => s.endLaunch t.job t.record 2
  | none => s.setCore c { s.core c with wait := .ended }

/-- The open region at depth `d`, counted from the outermost. -/
def Core.regionAt (c : Core) (d : Nat) : Option Region := c.regions.reverse[d - 1]?

/-! ### Reading the undo log -/

/-- A word of the log at a byte offset from its base. -/
def State.logWord (s : State) (c o : Nat) : Nat := s.padGet c ((s.core c).logBase * 0x10000 + o) 8

/-- Size in 16-byte units of the log entry at a unit. -/
def State.logUnits (s : State) (c u : Nat) : Nat :=
  let w0 := s.logWord c (16 * u)
  let w1 := s.logWord c (16 * u + 8)
  let body := match fld w0 62 2 with
    | 0 => popcount 16 (w1 % 65536)
    | 1 => 2
    | _ => 1 + popcount 64 w1 + 64 * popcount 64 (s.logWord c (16 * u + 16))
  1 + (body + 1) / 2

/-- The units at which log entries begin, newest first. -/
def State.logStarts (s : State) (c lo hi : Nat) : Nat → List Nat
  | 0 => []
  | fuel + 1 => if hi ≤ lo then [] else State.logStarts s c (lo + s.logUnits c lo) hi fuel ++ [lo]

/-- The thread key of a core's ring. -/
def State.keyOf (s : State) (c : Nat) : Nat :=
  match (s.ring (c / 16)).thread with
  | some t => t.key
  | none => 0

/-- Restore the words of a kind 0 entry through the translation its address has now; none when there is none or it may
not be written. -/
def State.restoreLine (s : State) (c u e : Nat) : Option State :=
  let w0 := s.logWord c (16 * u)
  let mask : BitVec 16 := BitVec.ofNat 16 (s.logWord c (16 * u + 8))
  let pd := fld w0 60 2
  if e ≤ pd then some s
  else
    let va := fld w0 0 57
    match s.lookup c (s.keyOf c) va with
    | (_, .error _) => none
    | (s, .ok l) =>
        if !l.w || (s.keyMat l.kid).isNone then none
        else
          let ln := (s.mapLine l (l.frame + va % l.size)).1 / 128
          let base := ((s.line c ln).getD {}).data
          let base := if pd = 0 then base else s.levelTwo l.lineKey ln
          let d := ((bitsSet mask).zipIdx).foldl
            (fun d i => setWord d i.1 (s.logWord c (16 * u + 16 + 8 * i.2))) base
          let bytes : BitVec 128 := (bitsSet mask).foldl (fun b i => b ||| byteMask (8 * i) 8) 0
          if pd = 0 then
            let s := if l.cls = 1 then s else s.obtain c ln true
            some (s.commitBytes l.lineKey ln bytes mask d)
          else
            let o := (s.line c ln).getD {}
            some (s.putLine c ln { o with
              st := .g pd, va := va, key := l.lineKey, soft := l.cls == 1, data := d, sw := mask, sdirty := bytes,
              full := mask, er := 0, present := BitVec.allOnes 16, dirty := true })

/-- Restore a kind 1 block. -/
def State.restorePad (s : State) (c u : Nat) : State :=
  let off := fld (s.logWord c (16 * u)) 0 57
  (s.padPut c off 8 (s.logWord c (16 * u + 16))).padPut c (off + 8) 8 (s.logWord c (16 * u + 24))

/-- Replay log entries, newest first, up to one whose line cannot be restored; whether there was none. -/
def State.undo (s : State) (c e : Nat) : List Nat → Bool × State
  | [] => (true, s)
  | u :: us =>
      match fld (s.logWord c (16 * u)) 62 2 with
      | 0 => (match s.restoreLine c u e with
        | some s => State.undo s c e us
        | none => (false, s))
      | 1 => State.undo (s.restorePad c u) c e us
      | _ => State.undo s c e us

/-- Kept registers read from a snapshot entry, every other register zero (R259 step 5). -/
def State.keptRegs (s : State) (c : Nat) (snap : Option Nat) : Vector Word 64 × Vector (BitVec 4096) 64 :=
  match snap with
  | none => (Vector.replicate 64 0, Vector.replicate 64 0)
  | some u =>
      let xm : BitVec 64 := BitVec.ofNat 64 (s.logWord c (16 * u + 8))
      let vm : BitVec 64 := BitVec.ofNat 64 (s.logWord c (16 * u + 16))
      let xs := bitsSet xm
      let vs := bitsSet vm
      let at0 := 16 * u + 24
      let x := (xs.zipIdx).foldl (fun (x : Vector Word 64) e => x.setIfInBounds e.1 (wd (s.logWord c (at0 + 8 * e.2))))
        (Vector.replicate 64 0)
      let at1 := at0 + 8 * xs.length
      let v := (vs.zipIdx).foldl (fun (v : Vector (BitVec 4096) 64) e =>
        v.setIfInBounds e.1 (BitVec.ofNat 4096
          (s.padGet c ((s.core c).logBase * 0x10000 + at1 + 512 * e.2) 512))) (Vector.replicate 64 0)
      (x, v)

/-- Roll back to the begin of depth `e`'s region (R259). `again`: another error is detected before step 6, which aborts the
thread after some of the log, a free number of its entries, has been undone. (DESIGN CHOICE: log 9) -/
def State.rollTo (s : State) (c e : Nat) (g : Region) (pc : Word) (again : Bool) : State :=
  let k := s.core c
  let keep := k.l1.filter (fun l => match l.2.st with
    | .g j => j < e
    | _ => true)
  let tail := k.logTail
  let s := s.setCore c { k with l1 := keep, oreqs := k.oreqs.map (fun e => (e.1, true)) }
  let starts := s.logStarts c g.start tail (tail + 1)
  let starts := if again then starts.take (Config.freeNat s.free % (starts.length + 1)) else starts
  match (if again then s.drew else s).undo c e starts with
  | (false, s) => s.abortCode c 0x0204 [pc]
  | (true, s) =>
      if again then s.abortCode c 0x0204 [pc]
      else
        let regs := s.keptRegs c g.snap
        let k := s.core c
        let retry := g.retry + 1
        let g' : Region := { g with retry := retry }
        let k := { k with
          x := regs.1, v := regs.2, p := Vector.replicate 16 0, t := Vector.replicate 4 0,
          vl := g.vl, vtype := g.vtype, frm := g.frm, tshape := g.tshape, fflags := g.fflags, levels := g.levels,
          strip := g.strip, inds := [], vcm := 0, tpAct := false, tpProg := 0, tmask := 0, staging := 0,
          regions := g' :: k.regions.drop (k.regions.length - e + 1), logTail := g.start,
          wait := .none, pc := g.resume }
        let k := k.setX g.xd (wd retry)
        (s.setCore c k).log (entry (s.keyOf c) c 0x0201 0 2 0 [wd e, wd retry, pc])

/-- Rollback with escalation from depth `e` (R259). (DEDUCED: log 77) -/
def State.rollback (s : State) (c : Nat) (pc : Word) (again : Bool) : Nat → State
  | 0 => s.abortCode c 0x0203 [pc]
  | e + 1 =>
      match (s.core c).regionAt (e + 1) with
      | none => s.abortCode c 0x0203 [pc]
      | some g =>
          if g.unrec || g.retry = g.limit then
            State.rollback (s.log (entry (s.keyOf c) c 0x0202 0 2 0 [wd (e + 1), wd g.retry, pc])) c pc again e
          else s.rollTo c (e + 1) g pc again

/-- A detected error of the instruction at `pc` on a core (R249); every restart of a chunk counts toward its three (R158). `again`: with another during the rollback (R259). (DEDUCED: log 104) (DESIGN CHOICE: log 125) -/
def State.detected (s : State) (c : Nat) (pc : Word) (again : Bool := false) : State :=
  let r := c / 16
  let g := s.ring r
  match g.chunkAt (slotOf c) with
  | some k =>
      let old := g.isOldest (slotOf c)
      if !old || (k.repairable && k.restarts < 3 && !(s.core c).handler) then
        let s := s.log (entry (s.keyOf c) c 0x0200 0 1 0 [pc])
        let s := s.setRing r (g.setChunk { k with restarts := k.restarts + 1 })
        s.squash r (slotOf c)
      else s.abortCode c 0x0203 [pc]
  | none =>
      if (s.core c).handler then s.abortCode c 0x0203 [pc]
      else s.rollback c pc again (s.core c).depth

end Sys2Proof.Machine
end

