-- ==== Sys2Proof/Machine/Registers.lean ====
section
/-! DEFINITION. The control registers: the module, fabric and memory control blocks of io space (R18, R57, R176) and
BAR0 of a link (R84), each read and written under its fields' access codes (R11). -/

namespace Sys2Proof.Machine

open Sys2Proof

/-! ### Reading -/

/-- A power or UALink flag field as a word. -/
def bitsW (bs : List (Bool × Nat)) : Nat := (bs.map (fun p => bitN p.1 * 2 ^ p.2)).sum

/-- A domain's entry. -/
def Dev.domain (d : Dev) (n : Nat) : Domain := d.domains.toList.getD n {}

/-- Replace a domain. -/
def Dev.setDomain (d : Dev) (n : Nat) (m : Domain) : Dev := { d with domains := d.domains.setIfInBounds n m }

/-- A UALink port. -/
def Dev.port (d : Dev) (p : Nat) : Ulk := d.ulk.toList.getD p {}

/-- Replace a UALink port. -/
def Dev.setPort (d : Dev) (p : Nat) (u : Ulk) : Dev := { d with ulk := d.ulk.setIfInBounds p u }

/-- A link's training. -/
def Dev.link (d : Dev) (l : Nat) : Option TrainKind := d.links.toList.getD l none

/-- NCLK_STAT (R23). -/
def Domain.stat (m : Domain) : Word :=
  wd (m.moves % 2 ^ 32 * 2 ^ 32 + bitN m.target.isSome * 8 + m.cur % 8)

/-- PWR_STAT (R26). -/
def Power.stat (p : Power) : Word :=
  wd (p.modW % 2 ^ 16 * 2 ^ 32 + p.pkgW % 2 ^ 16 * 2 ^ 16 + p.thr % 16 * 256 +
    bitsW [(p.hot, 2), (p.modLim, 1), (p.pkgLim, 0)])

/-- ULK_SEC_STAT (R37). -/
def Ulk.stat (u : Ulk) : Word :=
  wd (bitsW [(u.txPend.isSome, 2), (2 ^ 63 ≤ u.txctr, 1), (u.halted, 0)])

/-- A register of the module control block by offset (R18); none for an unlisted offset. -/
def State.moduleReg (s : State) (o : Nat) : Option Word :=
  let d := s.dev
  if o % 8 != 0 then none
  else if o < 0x100 then some (d.domain (o / 8)).ctl
  else if o < 0x200 then some (d.domain ((o - 0x100) / 8)).stat
  else if o = 0x200 then some d.power.stat
  else if o = 0x300 then some (wd (bitN d.almLock * 256 + d.almEn.toNat * 8 + d.almPol % 4))
  else if o = 0x308 then some (wd (d.almCount % 2 ^ 32 * 2 ^ 32 + d.almSeen.toNat * 8))
  else if 0x400 ≤ o ∧ o < 0x4C0 then some (d.port ((o - 0x400) / 8)).stat
  else if 0x500 ≤ o ∧ o < 0x5C0 then some (wd (d.port ((o - 0x500) / 8)).txctr)
  else none

/-- FAB_CFG (R60). -/
def Fab.cfg (f : Fab) : Word :=
  wd (f.devidAct % 4096 * 2 ^ 32 + f.devid % 4096 * 2 ^ 16 + bitN f.ordAct * 2 + bitN f.ord)

/-- A register of the fabric block (R57). -/
def State.fabricReg (s : State) (o : Nat) : Option Word :=
  let f := s.fab
  let k := o % 0x1000
  if o % 8 != 0 then none
  else if o < 0x100000 then
    let n := o / 0x1000
    if k < 0x200 then some (Table.get f.lmtN (64 * n + k / 8) 0)
    else if k = 0x200 then some (Table.get f.dropKeyN n 0)
    else if k = 0x208 then some (Table.get f.dropSandN n 0)
    else if k = 0x210 then some (Table.get f.sandLateN n 0)
    else if k = 0x218 then some (Table.get f.resendN n 0)
    else none
  else if o < 0x118000 then
    let p := (o - 0x100000) / 0x1000
    if k < 0x200 then some (Table.get f.lmtP (64 * p + k / 8) 0)
    else if k = 0x200 then some (Table.get f.dropKeyP p 0)
    else if k = 0x208 then some (Table.get f.dropSandP p 0)
    else none
  else if o = 0x200000 then some f.cfg
  else if 0x208000 ≤ o ∧ o < 0x210000 then some (Table.get f.drt ((o - 0x208000) / 8) 0)
  else none

/-- FRQ_CTL (R179). -/
def Frq.ctl (q : Frq) : Word := wd (q.icore % 4096 * 2 ^ 16 + bitN q.ie * 2 + bitN q.en)

/-- A register of the memory control block (R176). -/
def State.memoryReg (s : State) (o : Nat) : Option Word :=
  if o % 8 != 0 then none
  else if o < 0x200 then some (Table.get s.hmask (o / 8) 0)
  else if 0x1000 ≤ o ∧ o < 0x1800 then
    let q := Table.get s.frq ((o - 0x1000) / 0x40) {}
    match o % 0x40 with
    | 0x00 => some (wd q.base)
    | 0x08 => some (wd q.head)
    | 0x10 => some (wd q.tail)
    | 0x18 => some q.ctl
    | _ => none
  else if o = 0x2000 then some s.tlbiVa
  else if o = 0x2008 then some (wd (bitN s.tlbiGo * 2 ^ 63 + s.tlbiOp % 4 * 2 ^ 18 + s.tlbiKey % 2 ^ 16))
  else none

/-- A register of io space; none where nothing is backed (R166). -/
def State.ioReg (s : State) (pa : Nat) : Option Word :=
  if 0x000FFD000000 ≤ pa ∧ pa < 0x000FFD010000 then s.memoryReg (pa - 0x000FFD000000)
  else if 0x000FFE000000 ≤ pa ∧ pa < 0x000FFE400000 then s.fabricReg (pa - 0x000FFE000000)
  else if 0x000FFF000000 ≤ pa ∧ pa < 0x000FFF010000 then s.moduleReg (pa - 0x000FFF000000)
  else none

/-- DEV_STAT as link `l` reads it (R85). -/
def State.devStat (s : State) (l : Nat) : Word :=
  let d := s.dev
  wd (d.bstep % 16 * 16 +
    bitsW [(d.dbg, 3), (d.attReq, 2), (d.link l == some .full, 1), (d.bstep == 5, 0)])

/-! ### Writing -/

/-- A write to ALM_CFG (R31): while locked, pol may only rise and enables may only be set; pol 3 is ignored. -/
def Dev.setAlm (d : Dev) (w : Word) : Dev :=
  let pol := fld w.toNat 0 2
  let en : BitVec 5 := BitVec.ofNat 5 (fld w.toNat 3 5)
  { d with
    almPol := if pol = 3 then d.almPol else if d.almLock then max d.almPol pol else pol
    almEn := if d.almLock then d.almEn ||| en else en
    almLock := d.almLock || w.getLsbD 8 }

/-- A write to the module control block; none for an unlisted offset. -/
def State.setModuleReg (s : State) (o : Nat) (w : Word) : Option State :=
  if (s.moduleReg o).isNone then none
  else if o < 0x100 then
    let m := s.dev.domain (o / 8)
    some { s with dev := s.dev.setDomain (o / 8) { m with ctl := w &&& 0x8777FFFF } }
  else if o = 0x300 then some { s with dev := s.dev.setAlm w }
  else if o = 0x308 then
    some { s with dev := { s.dev with almSeen := s.dev.almSeen &&& ~~~(BitVec.ofNat 5 (fld w.toNat 3 5)) } }
  else some s

/-- A counter after a write: `last_key` is kept, the count is set (R59). -/
def setCount (old w : Word) : Word := wd (fld old.toNat 48 16 * 2 ^ 48 + fld w.toNat 0 48)

/-- Valid bit and key of a membership entry (R58). -/
def lmtBits (w : Word) : Word := w &&& 0x800000000000FFFF

/-- A write to the fabric block. -/
def State.setFabricReg (s : State) (o : Nat) (w : Word) : Option State :=
  let f := s.fab
  let k := o % 0x1000
  let cnt (t : Table Word) (n : Nat) : Table Word := Table.put t n (setCount (Table.get t n 0) w)
  if (s.fabricReg o).isNone then none
  else if o < 0x100000 then
    let n := o / 0x1000
    some { s with fab :=
      if k < 0x200 then { f with lmtN := Table.put f.lmtN (64 * n + k / 8) (lmtBits w) }
      else if k = 0x200 then { f with dropKeyN := cnt f.dropKeyN n }
      else if k = 0x208 then { f with dropSandN := cnt f.dropSandN n }
      else if k = 0x210 then { f with sandLateN := cnt f.sandLateN n }
      else { f with resendN := cnt f.resendN n } }
  else if o < 0x118000 then
    let p := (o - 0x100000) / 0x1000
    some { s with fab :=
      if k < 0x200 then { f with lmtP := Table.put f.lmtP (64 * p + k / 8) (lmtBits w) }
      else if k = 0x200 then { f with dropKeyP := cnt f.dropKeyP p }
      else { f with dropSandP := cnt f.dropSandP p } }
  else if o = 0x200000 then some { s with fab := { f with devid := fld w.toNat 16 12, ord := w.getLsbD 0 } }
  else some { s with fab := { f with drt := Table.put f.drt ((o - 0x208000) / 8) (w &&& 0x8000FFFFFF0003FF) } }

/-- A write to TLBI_CMD (R177): ignored while go is 1; go starts the command that op names. -/
def State.setTlbiCmd (s : State) (w : Word) : State :=
  if s.tlbiGo then s
  else
    let op := fld w.toNat 18 2
    let s := { s with tlbiOp := op, tlbiKey := fld w.toNat 0 16, tlbiGo := w.getLsbD 63 }
    if !w.getLsbD 63 then s
    else match op with
      | 0 => s.after .tlbiPage
      | 1 => s.after .tlbiKey
      | 2 => s.after .tlbiAll
      | _ => s.after .tlbiNothing

/-- A write to a fault record queue register (R179). -/
def Frq.write (q : Frq) (r : Nat) (w : Word) : Frq :=
  match r with
  | 0x00 => { q with base := fld w.toNat 13 39 * 8192 }
  | 0x08 => if 256 < (q.tail + 512 - fld w.toNat 0 9) % 512 then q else { q with head := fld w.toNat 0 9 }
  | 0x18 => { q with icore := fld w.toNat 16 12, ie := w.getLsbD 1, en := w.getLsbD 0 }
  | _ => q

/-- A write to the memory control block. -/
def State.setMemoryReg (s : State) (o : Nat) (w : Word) : Option State :=
  if (s.memoryReg o).isNone then none
  else if o < 0x200 then some { s with hmask := Table.put s.hmask (o / 8) (w &&& 0xFFFFFFFF) }
  else if o < 0x2000 then
    let c := (o - 0x1000) / 0x40
    some { s with frq := Table.put s.frq c ((Table.get s.frq c {}).write (o % 0x40) w) }
  else if o = 0x2000 then some (if s.tlbiGo then s else { s with tlbiVa := w })
  else some (s.setTlbiCmd w)

/-- A write to a register of io space; none where nothing is backed. -/
def State.setIoReg (s : State) (pa : Nat) (w : Word) : Option State :=
  if 0x000FFD000000 ≤ pa ∧ pa < 0x000FFD010000 then s.setMemoryReg (pa - 0x000FFD000000) w
  else if 0x000FFE000000 ≤ pa ∧ pa < 0x000FFE400000 then s.setFabricReg (pa - 0x000FFE000000) w
  else if 0x000FFF000000 ≤ pa ∧ pa < 0x000FFF010000 then s.setModuleReg (pa - 0x000FFF000000) w
  else none

/-! ### Doorbells (R95, R96) -/

/-- The key an error log entry gives for a job: 0 when it is not open. -/
def Job.logKey (k : Job) : Nat := if k.st == .open_ then k.key else 0

/-- Reject a doorbell (R96) with its cause (R101). -/
def State.rejectBell (s : State) (j idx cause : Nat) : State :=
  let k := s.job j
  (s.setJob j { k with rej := (k.rej + 1) % 2 ^ 24 }).log
    (entry k.logKey 0xFFF 0x0020 1 0 0 [wd (cause % 16 * 4096 + idx % 4096)])

/-- A CXL.mem write received on a link. -/
def isMemWr (l : Nat) (i : Instr) : Bool :=
  match i with
  | .memWr r _ _ _ => r.link.val == l
  | _ => false

/-- The lines that hold a CXL.mem write received on a link: it waits for a back-invalidate (R83, R97). -/
def State.heldWrites (s : State) (l : Nat) : List Nat :=
  (s.filter.filter (fun e => e.2.held.any (isMemWr l))).map (·.1)

/-- A write to DOORBELL: it queues the index, or is lost (R96). (DEDUCED: log 87) -/
def State.ringBell (s : State) (l j : Nat) (w : Word) : State :=
  let k := s.job j
  let idx := fld w.toNat 0 12
  if k.bells.length < 256 then
    (s.setJob j { k with bells := k.bells ++ [{ idx := idx, link := l, lines := s.heldWrites l }] }).after
      (.doorbellServe (Fin.ofNat 256 j))
  else
    (s.setJob j { k with rej := (k.rej + 1) % 2 ^ 24 }).log (entry k.logKey 0xFFF 0x0021 1 0 0 [wd (idx % 4096)])

/-- A doorbell write through a link (R76, R96): one that did not train with CXL.cache and CXL.mem accepts no launch. (DEDUCED: log 87) -/
def State.doorbell (s : State) (l j : Nat) (w : Word) : State :=
  if s.dev.link l == some .full then s.ringBell l j w else s.rejectBell j (fld w.toNat 0 12) 1

/-! ### The mailbox and BAR0 (R84–R87, R100–R102) -/

/-- The response words of a command: all zero but those given. -/
def responseWords (ws : List Word) : Vector Word 32 :=
  Vector.ofFn (fun i => ws.getD i.val 0)

/-- Hold a command's result and let it be posted. -/
def State.post (s : State) (res : Nat) (ws : List Word) : State :=
  { s with dev := { s.dev with mbxPost := some (res, ws) } }.after .mbxCompletion

/-- Start the command that MBX_CMD names. -/
def State.startCommand (s : State) : State :=
  match s.dev.mbxCmd with
  | 0 => s.after .status
  | 1 => s.after .jobOpen
  | 2 => s.after .jobClose
  | 3 => s.after .keyInstall
  | 4 => s.after .keyClear
  | 5 => s.after .linkKey
  | 6 => s.after .warmReset
  | _ => s.post 1 []

/-- A write to MBX_CTL through a link (R86): write-1-to-clear acts first, then go. -/
def State.setMbxCtl (s : State) (l : Nat) (w : Word) : State :=
  let s := { s with dev := { s.dev with mbxOvr := s.dev.mbxOvr && !w.getLsbD 16 } }
  if !w.getLsbD 0 then s
  else if s.dev.mbxBusy then { s with dev := { s.dev with mbxOvr := true } }
  else { s with dev := { s.dev with mbxBusy := true, mbxLink := l, mbxPost := none } }.startCommand

/-- A write to a job page (R95, R102). -/
def State.setJobReg (s : State) (l j o : Nat) (w : Word) : Option State :=
  let k := s.job j
  match o with
  | 0x000 => some (s.doorbell l j w)
  | 0x008 => some s
  | 0x010 => some (s.setJob j (if fld w.toNat 0 2 = 3 then k else { k with capMode := fld w.toNat 0 2 }))
  | 0x018 => some (s.setJob j { k with capBase := fld w.toNat 16 36 * 65536 })
  | 0x020 => some (s.setJob j { k with capSize := fld w.toNat 16 24 * 65536 })
  | 0x028 => some s
  | _ => none

/-- A write of `n` bytes to BAR0 of link `l`; none for an unlisted offset or another size (R84). The MSI-X areas take the
4-byte and 8-byte accesses of PCIe. -/
def State.setBar0 (s : State) (l o n : Nat) (w : Word) : Option State :=
  let d := s.dev
  if 0x300000 ≤ o ∧ o < 0x301020 then
    (if (n ≠ 4 ∧ n ≠ 8) ∨ o % n ≠ 0 then none
     else if 0x301000 ≤ o then some s
     else
       let i := (o - 0x300000) / 8
       some { s with dev := { d with
         msixTab := Table.put d.msixTab (512 * l + i) (setFld (d.msixWord l i) (8 * (o % 8)) (8 * n) w.toNat) } })
  else if o % 8 ≠ 0 ∨ n ≠ 8 then none
  else if o = 0x0000 then some s
  else if o = 0x1000 then some (s.setMbxCtl l w)
  else if o = 0x1008 then some (if d.mbxBusy then s else { s with dev := { d with mbxCmd := fld w.toNat 0 8 } })
  else if 0x1100 ≤ o ∧ o < 0x1200 then
    some (if d.mbxBusy then s
      else { s with dev := { d with mbxIn := d.mbxIn.setIfInBounds ((o - 0x1100) / 8) w } })
  else if 0x1200 ≤ o ∧ o < 0x1300 then some s
  else if o = 0x2000 then some { s with dev := { d with elogHead := fld w.toNat 0 10 } }
  else if o = 0x2008 then some s
  else if o = 0x2010 then some { s with dev := { d with elogLost := fld w.toNat 0 32 } }
  else if o = 0x2018 then some { s with dev := { d with mbxIe := w.getLsbD 1, elogIe := w.getLsbD 0 } }
  else if 0x10000 ≤ o ∧ o < 0x20000 then some s
  else if 0x100000 ≤ o ∧ o < 0x200000 then s.setJobReg l ((o - 0x100000) / 0x1000) (o % 0x1000) w
  else if 0x200000 ≤ o ∧ o < 0x210000 then s.setModuleReg (o - 0x200000) w
  else none

/-- A vector whose mask bit has been cleared while it was pending is sent (PCIe). -/
def State.sendPending (s : State) (l : Nat) : State :=
  ((List.range 256).filter (fun v => (s.dev.pba l).getLsbD v && !s.dev.msixMasked l v)).foldl
    (fun s v => { s with dev := s.dev.setPba l v false }.emit (.msix l v)) s

/-- The host interface is open on a link: the boot has ended (R28) and the link is trained. -/
def Dev.hostOpen (d : Dev) (l : Nat) : Bool := d.bstep == 5 && (d.link l).isSome

/-- CXL.cache and CXL.mem run on a link (R75, R76): the boot has ended and the link trained with both. -/
def Dev.memOpen (d : Dev) (l : Nat) : Bool := d.bstep == 5 && d.link l == some .full

/-- REGISTER_WRITE (R11): through io space, or through BAR0 of a link on which the host interface is open. -/
def registerWrite (r : RegPath) (w : Word) (s : State) : State :=
  match r with
  | .io pa => (s.setIoReg pa w).getD s
  | .bar0 l o n =>
      if !s.dev.hostOpen l.val then s
      else match s.setBar0 l.val o n w with
        | some s => s.sendPending l.val
        | none => s.emit .unsupported

end Sys2Proof.Machine
end

