-- ==== Sys2Proof/Machine/Access.lean ====
section
/-! DEFINITION. Accesses by virtual or window address: translation and permission (R165, R172, R30), context-area
protection (R240, R241), windows and their store buffer and read filter (R63, R147, R148), io space (R193), split accesses
(R182), atomics (R213, R351), contributions (R348), releases, acquires and fences (R188, R209, R223). -/

namespace Sys2Proof.Machine

open Sys2Proof

/-! ### Scopes and keys -/

/-- Numbers of the parties past the cores (R201): the copy harts stand at 4096 and up, eight a cluster; then come the scheduler
and the security processor, a host, an io party and the parties of another package. (DEDUCED: log 41) -/
def schedCore : Nat := 4352

/-- A host processor. -/
def hostParty : Nat := 4353

/-- A peer device, or a Type 3 device. -/
def ioParty : Nat := 4354

/-- A party of another package. -/
def farParty : Nat := 4355

/-- The cluster of a core or copy hart. -/
def clusterOf (c : Nat) : Nat := if c < 4096 then c / 128 else (c - 4096) / 8

/-- The smallest scope whose unit contains two parties (R202). (DEDUCED: log 26) -/
def scopeBetween (c d : Nat) : Nat :=
  if c = d then 0
  else if 4096 ≤ max c d then
    (if max c d = farParty then 8 else if max c d = ioParty then 7 else if max c d = hostParty then 6
     else if max c d < schedCore && clusterOf c == clusterOf d then 3 else 5)
  else if c / 4 = d / 4 then 1 else if c / 16 = d / 16 then 2 else if c / 128 = d / 128 then 3
  else if c / 512 = d / 512 then 4 else 5

/-- What the ports and the target node say to an access to a core's scratchpad (R55, R123). -/
inductive Gate where
  | accept | refuse | deny (s : State)
  deriving DecidableEq, Repr

/-- The gate between a source core and a target core for a key; the scheduler, a party past the cores, has no port. (DEDUCED: log 26) -/
def State.gate (s : State) (key c tgt : Nat) : Gate :=
  let g := s.ring (tgt / 16)
  if key = 0 || c = tgt then .accept
  else if c < 4096 && !s.memberN (c / 16) key then .deny (s.dropAt (c / 16) key)
  else if !s.memberN (tgt / 16) key then .deny (s.dropAt (tgt / 16) key)
  else if (match g.parked with
    | some p => p.thread.key == key
    | none => false) then .refuse
  else if g.key = key then .accept
  else .deny (s.dropAt (tgt / 16) key)

/-! ### Translation -/

/-- Where a part of an access goes. -/
inductive Place where
  | mem (a : At)
  | io (pa key : Nat)
  | pad (core off : Nat)
  /-- Not yet known: its walk waits. -/
  | held (w : Wait)
  deriving DecidableEq, Repr

/-- Who accesses: the core, its key, thread mode, and the element of a vector access. A copy hart is a party of its own:
`core` is its number past the cores, and `via` the kicking core. -/
structure Who where
  core : Nat
  key : Nat
  thread : Bool
  hart : Bool := false
  via : Nat := 0
  elem : Nat := 0
  /-- The flags and scope of the access, and the operation of an atomic, for its packet's head (R44). -/
  fl : Flags := {}
  atom : Option AtomOp := none
  deriving DecidableEq, Repr

/-- The core whose node a party's packets leave from. -/
def Who.origin (w : Who) : Nat := if w.hart then w.via else w.core

/-- The executing core's accesses. -/
def State.who (s : State) : Who := { core := s.cur, key := s.key, thread := !s.me.handler }

/-- The executing core's accesses with the flags and scope of a load or store. -/
def State.whoWith (s : State) (fl : Flags) : Who := { s.who with fl := fl }

/-- The executing core's atomic accesses, with what their packets say of them (R44). -/
def State.whoAtomic (s : State) (q : AtomOp) (acq rel : Bool) (sc : Nat) : Who :=
  { s.who with fl := { rel := rel, acq := acq, sc := sc }, atom := some q }

/-- Permission of a leaf for an access kind: the cause of its fault (R178). -/
def permFault (l : Leaf) (acc : Nat) : Option Nat :=
  if acc = 4 then (if l.x then none else some 4)
  else if (acc = 0 ∨ acc = 2 ∨ acc = 5) ∧ !l.r then some 2
  else if (acc = 1 ∨ acc = 2 ∨ acc = 3 ∨ acc = 6) ∧ !l.w then some 3
  else none

/-- A thread-mode write into the area that the executing core's `ctxbase` names (R241). -/
def State.inCtx (s : State) (w : Who) (va n : Nat) : Bool :=
  let b := (s.core w.core).ctxbase.toNat
  w.thread && !w.hart && b != 0 && va < b + 0x20000 && b < va + n

/-- The device IDs that name this package (R62). -/
def State.ownDev (s : State) (d : Nat) : Bool := d == 0 || d == s.fab.devidAct

/-- Place one part of an access (R165): translated, permitted and with its key present, or its fault. Context areas are
closed to thread-mode writes and to copy writes. (DESIGN CHOICE: log 25) -/
def State.place (s : State) (w : Who) (acc va n : Nat) : State × Except AccFault Place :=
  let bad (cause : Nat) (lvl pa : Nat) : Except AccFault Place :=
    .error { cause := cause, acc := acc, va := va, lvl := lvl, pa := pa }
  let writes := acc = 1 ∨ acc = 2 ∨ acc = 3 ∨ acc = 6
  let top := va / 2 ^ 56 % 256
  if top = 0xFE then
    let off := va % 2 ^ 32
    if !s.ownDev (fld va 44 12) || 0x60000 < off + n || acc = 3 || acc = 4 then (s, bad 7 0 0)
    else if writes ∧ 0x40000 < off + n ∧ (w.thread || w.hart) then (s, bad 7 0 0)
    else (s, .ok (.pad (fld va 32 12) off))
  else if 2 ≤ top then (s, bad 7 0 0)
  else match s.walkNeed w.core w.key va with
  | (some x, s) => (s, .ok (.held x))
  | (none, s) =>
    match s.lookup w.core w.key va with
    | (s, .error f) => (s, bad f.cause f.lvl 0)
    | (s, .ok l) =>
        let pa := l.frame + (va - l.page)
        match permFault l acc with
        | some cause => (s, bad cause 0 0)
        | none =>
            if (s.keyMat l.kid).isNone then (s, bad 6 0 pa)
            else if writes ∧ s.inCtx w va n then (s, bad 7 0 0)
            else if l.cls = 3 then
              (if acc = 2 ∨ acc = 3 then (s, bad 8 0 pa)
               else if rangeOf pa = .io ∧ (n ≠ 8 ∨ acc = 4 ∨ (s.ioReg pa).isNone) then (s, bad 7 0 0)
               else (s, .ok (.io pa l.lineKey)))
            else if (acc = 2 ∧ l.cls = 2) ∨ (acc = 3 ∧ l.cls ≠ 2) then (s, bad 8 0 pa)
            else
              let m := s.mapLine l pa
              (m.2, .ok (.mem { core := w.core, key := l.lineKey, cls := l.cls, cfmt := l.cfmt, tier := l.tier, pa := m.1,
                                va := va, fl := w.fl, atom := w.atom }))

/-- A page of the io class holds a byte of an access, whatever its permissions. -/
def State.touchesIo (s : State) (w : Who) (va n : Nat) : Bool :=
  [va, va + n - 1].any (fun a =>
    a / 2 ^ 56 % 256 < 2 && (match (s.lookup w.core w.key a).2 with
      | .ok l => l.cls == 3
      | .error _ => false))

/-- A window address of a scratchpad other than the core's own. -/
def State.foreignPad (s : State) (c va : Nat) : Bool :=
  va / 2 ^ 56 % 256 == 0xFE && (fld va 32 12 != c || !s.ownDev (fld va 44 12))

/-! ### Scratchpads -/

/-- A store to a scratchpad from outside the thread of its ring squashes the oldest chunk whose read filter it hits
(R148). -/
def State.padOutside (s : State) (tgt off n : Nat) : State :=
  let r := tgt / 16
  let words := (List.range ((off + n - 1) / 8 - off / 8 + 1)).map (fun i => padKey tgt off / 8 + i)
  match ((s.ring r).chunks.drop 1).find? (fun k =>
      words.any (fun w => (s.core (coreAt r k.slot)).rfilter.contains w)) with
  | some k => s.squash r k.slot
  | none => s

/-- Write a scratchpad from outside its thread. -/
def State.padExternal (s : State) (tgt off n v : Nat) : State := (s.padPut tgt off n v).padOutside tgt off n

/-- A byte of a scratchpad as a chunk sees it: its own store buffer, then those of older chunks, nearest first; none when
none of them holds it (R147). -/
def State.bufByte (s : State) (c : Nat) (cs : List Nat) (key : Nat) : Option (Nat × Byte) :=
  (c :: cs).findSome? (fun d =>
    ((s.core d).sbuf.reverse.find? (fun e => e.addr ≤ key && key < e.addr + e.size)).map
      (fun e => (d, BitVec.ofNat 8 (fld e.data (8 * (key - e.addr)) 8))))

/-- What an access answers. -/
inductive Res where
  | ok (v : Nat) (s : State)
  | flt (f : AccFault) (s : State)
  | wait (w : Wait) (s : State)
  | err (s : State)
  deriving DecidableEq, Repr

/-- An answer of the cache. -/
def Mem.res : Mem → Res
  | .ok v s => .ok v s
  | .wait w s => .wait w s
  | .err s => .err s

/-- Go on with the value of an access. -/
def Res.bind (r : Res) (k : Nat → State → Res) : Res :=
  match r with
  | .ok v s => k v s
  | .flt f s => .flt f s
  | .wait w s => .wait w s
  | .err s => .err s

/-- Drain the oldest store-buffer entry of a core (R152, R153). In another ring it is a store from outside (R148) that
meets that ring's gate: denied, it leaves a record and the sticky denial (R56); refused, it reaches the image of the
thread that is parked there (R123). -/
def State.drainOne (s : State) (c : Nat) : State :=
  match (s.core c).sbuf with
  | [] => s
  | e :: rest =>
      let s := s.setCore c { s.core c with sbuf := rest }
      let tgt := e.addr / 2 ^ 32 % 4096
      let ask (s : State) : State := if tgt = c then s
        else s.request c (nodeOf tgt) { kind := 2, size := e.size, addr := e.addr, data := bytesOf e.size e.data }
      let done (s : State) : State := { s with mem := Memory.writeN s.mem e.addr e.size e.data }
      if tgt / 16 = c / 16 then done (ask s)
      else
        let key := s.threadKey c
        match s.gate key c tgt with
        | .accept => (done (ask s)).padOutside tgt (e.addr % 2 ^ 32) e.size
        | .deny s => s.deniedRecord c key e.pc { cause := 9, acc := 1, va := e.addr }
        | .refuse =>
            let s := ask s
            let g := s.ring (tgt / 16)
            (match g.parked with
             | some p =>
                 s.setRing (tgt / 16)
                   { g with parked := some { p with pads := Memory.writeN p.pads e.addr e.size e.data } }
             | none => s)

/-- The oldest chunk's store buffer drains: its stores reach the scratchpads (R152, R153). -/
def State.drainSbuf (s : State) (c : Nat) : State :=
  match (s.ring (c / 16)).chunkAt (slotOf c) with
  | none => s
  | some _ =>
      if (s.core c).sbuf.isEmpty then s else (s.core c).sbuf.foldl (fun s _ => s.drainOne c) (s.unrepairableAt c)

/-- The thread and the handler of a core are one party in issue order (R201): before the handler reaches a scratchpad, what the
thread has stored is there. -/
def State.handlerFirst (s : State) (w : Who) : State := if w.thread || w.hart then s else s.drainSbuf w.core

/-- A load of a scratchpad by a core (R63, R147). -/
def State.padLoad (s : State) (w : Who) (va tgt off n : Nat) : Res :=
  let c := w.core
  let r := c / 16
  let g := s.ring r
  let spec := w.thread && !w.hart && g.isSpec (slotOf c)
  if spec && tgt / 16 != r then .wait .commitPoint s
  else
    match (s.handlerFirst w).gate w.key w.origin tgt with
    | .deny s => .flt { cause := 9, acc := if w.hart then 5 else 0, va := va } s
    | .refuse => .wait .oreq s
    | .accept =>
        let s := s.handlerFirst w
        let s := if tgt = c then s
          else s.request c (nodeOf tgt) { kind := 1, size := n, addr := va, fl := w.fl, result := bytesOf n (s.padGet tgt off n) }
        let s := if w.thread && !w.hart && tgt / 16 != r then s.unrepairableAt c else s
        let inChunk := w.thread && !w.hart && (g.chunkAt (slotOf c)).isSome
        if !inChunk then .ok (s.padGet tgt off n) s
        else
          let older := (g.olderThan (slotOf c)).map (fun k => coreAt r k.slot)
          let bs := (List.range n).map (fun i => s.bufByte c older (padKey tgt (off + i)))
          let v := ofBytes ((bs.zipIdx).map (fun e => match e.1 with
            | some b => b.2
            | none => Memory.read s.mem (padKey tgt (off + e.2))))
          let words := ((bs.zipIdx).filterMap (fun e => match e.1 with
            | some b => if b.1 = c then none else some (padKey tgt (off + e.2) / 8)
            | none => some (padKey tgt (off + e.2) / 8))).eraseDups.filter (fun x => !(s.core c).rfilter.contains x)
          if !spec then .ok v s
          else if 256 < (s.core c).rfilter.length + words.length then (s.overflows c).res
          else .ok v (s.setCore c { s.core c with rfilter := (s.core c).rfilter ++ words })

/-- A store to a scratchpad. A chunk's store waits in the store buffer until commit (R147); a copy's needs the core's
permission (R64, R200). (DEDUCED: log 58) -/
def State.padStore (s : State) (w : Who) (va tgt off n v : Nat) : Res :=
  let c := w.core
  let g := s.ring (c / 16)
  if w.thread && !w.hart && (g.chunkAt (slotOf c)).isSome then
    if g.isSpec (slotOf c) && 64 ≤ (s.core c).sbuf.length then (s.overflows c).res
    else
      let s := if 64 ≤ (s.core c).sbuf.length then (s.unrepairableAt c).drainOne c else s
      let e : SbEntry := { addr := padKey tgt off, size := n, data := v % 2 ^ (8 * n), pc := (s.core c).pc }
      let s := s.setCore c { s.core c with sbuf := (s.core c).sbuf ++ [e] }
      .ok 0 (s.broadcast c (padKey tgt off) 0 n v true)
  else match (s.handlerFirst w).gate w.key w.origin tgt with
  | .deny s =>
      if w.hart then .flt { cause := 9, acc := 6, va := va } s
      else .ok 0 (s.deniedRecord c w.key (s.core c).pc { cause := 9, acc := 1, va := va, elem := w.elem })
  | .refuse => .wait .oreq s
  | .accept =>
      let s := s.handlerFirst w
      if w.hart && !(s.core tgt).cpmask.getLsbD (w.via / 128 % 32) then .flt { cause := 9, acc := 6, va := va } s
      else
        let s := if tgt = c && w.thread && !w.hart then s.logPad c off n else s
        let s := if tgt = c then s
          else s.request c (nodeOf tgt) { kind := 2, size := n, addr := va, fl := w.fl, data := bytesOf n v }
        .ok 0 (s.padExternal tgt off n v)

/-! ### Commit points -/

/-- The executing chunk is past a commit point: what it has stored to scratchpads comes before it (R68, R208–R216), and it
can no longer be repaired (R158). -/
def State.committing (s : State) : State := (s.drainSbuf s.cur).unrepairable

/-- A commit point (R154): a speculative chunk stalls at it; otherwise it executes. -/
def commitPoint (s : State) (k : State → State) : State :=
  if s.speculative then s.waitFor .commitPoint else k s.committing

/-! ### Io space -/

/-- The node where an io access of a core leaves for its target: memory of another IO die is reached through that die's gateway
(R42). -/
def ioNode (c pa : Nat) : Nat :=
  if rangeOf pa = .io || c / 1024 = ioDie pa then nodeOf c else gatewayNode (ioDie pa) pa

/-- An io access that crosses the torus meets the membership tables at both ends (R54, R55). -/
def State.barredIo (s : State) (w : Who) (pa : Nat) : Option State :=
  if 4096 ≤ w.origin then none else s.barredOn w.key [(nodeOf w.origin, ioNode w.origin pa)]

/-- The host lets go of memory that an io page holds before an access to it is performed, as of any core access (R79, R82). -/
def State.ioNeed (s : State) (pa key n : Nat) (write : Bool) : Option Wait × State :=
  match rangeOf pa with
  | .io | .none => (none, s)
  | .cxl => if key = 4096 then s.available 3 pa n write else (none, s)
  | _ => s.available 0 pa n write

/-- A load of the io class, performed once at its target (R193); its value is captured (R260). -/
def State.ioLoad (s : State) (w : Who) (pa key n : Nat) : Res :=
  let ask (v : Nat) (s : State) : State :=
    s.request w.core (ioNode w.core pa) { kind := 1, size := n, addr := pa, fl := w.fl, result := bytesOf n v }
  match s.ioNeed pa key n false with
  | (some x, s) => .wait x s
  | (none, s) =>
      match s.ioReg pa with
      | some v =>
          let r := (ask v.toNat s).input w.core 0x04 8 [v.toNat]
          .ok (r.1.headD v.toNat) r.2
      | none =>
          let v := s.physRead (s.matK key) pa n
          if s.poisonAt (pa / 128) (wordsOf (pa % 128) n) then .err (ask v s)
          else
            let r := (ask v s).input w.core 0x04 8 [v]
            .ok (r.1.headD v) r.2

/-- A store of the io class, performed once at its target. -/
def State.ioStore (s : State) (w : Who) (pa key n v : Nat) : Res :=
  match s.ioNeed pa key n true with
  | (some x, s) => .wait x s
  | (none, s) =>
      let s := s.request w.core (ioNode w.core pa) { kind := 2, size := n, addr := pa, fl := w.fl, data := bytesOf n v }
      match s.setIoReg pa (wd v) with
      | some s => .ok 0 s
      | none => .ok 0 (s.storeBytes w.core key (pa / 128) (pa % 128) n v)

/-! ### Whole accesses -/

/-- Place the parts of an access in ascending order: the places, or the fault of the lowest. -/
def State.placeAll (s : State) (w : Who) (acc : Nat) :
    List (Nat × Nat × Nat) → State × List (Nat × Nat × Place) × Option AccFault
  | [] => (s, [], none)
  | (a, o, n) :: ps =>
      match s.place w acc a n with
      | (s, .error f) => (s, [], some f)
      | (s, .ok p) =>
          let r := State.placeAll s w acc ps
          (r.1, (o, n, p) :: r.2.1, r.2.2)

/-- A miss that crosses the torus meets the membership tables (R54, R55). -/
def State.barred (s : State) (w : Who) (ln : Nat) : Option State := s.barredAt w.key w.core w.origin ln

/-- Perform one part of a load. -/
def State.loadPart (s : State) (w : Who) (va n : Nat) (p : Place) (fresh : Bool) : Res :=
  match p with
  | .mem a =>
      (match s.barred w a.ln with
       | some s => .flt { cause := 9, acc := if w.hart then 5 else 0, va := va, pa := a.pa } s
       | none => (s.loadLine a n fresh).res)
  | .io pa key =>
      (match s.barredIo w pa with
       | some s => .flt { cause := 9, acc := if w.hart then 5 else 0, va := va, pa := pa } s
       | none => s.ioLoad { w with fl := { w.fl with fresh := fresh } } pa key n)
  | .pad t off => s.padLoad { w with fl := { w.fl with fresh := fresh } } va t off n
  | .held x => .wait x s

/-- Perform one part of a store. -/
def State.storePart (s : State) (w : Who) (va n v : Nat) (p : Place) : Res :=
  match p with
  | .mem a =>
      (match s.barred w a.ln with
       | some s => denied s a.pa
       | none => (s.storeLine a n v).res)
  | .io pa key =>
      (match s.barredIo w pa with
       | some s => denied s pa
       | none => s.ioStore w pa key n v)
  | .pad t off => s.padStore w va t off n v
  | .held x => .wait x s
where
  /-- A denied store leaves its record and the sticky denial; a copy stops (R56). -/
  denied (s : State) (pa : Nat) : Res :=
    if w.hart then .flt { cause := 9, acc := 6, va := va, pa := pa } s
    else .ok 0 (s.deniedRecord w.core w.key (s.core w.core).pc { cause := 9, acc := 1, va := va, pa := pa, elem := w.elem })

/-- Perform the parts of a load and join their values. -/
def State.loadParts (s : State) (w : Who) (va : Nat) (fresh : Bool) : List (Nat × Nat × Place) → Nat → Res
  | [], v => .ok v s
  | (o, n, p) :: ps, v =>
      (s.loadPart w (va + o) n p fresh).bind (fun x s => State.loadParts s w va fresh ps (v + x * 2 ^ (8 * o)))

/-- Perform the parts of a store. (DESIGN CHOICE: log 27) (DEDUCED: log 28) -/
def State.storeParts (s : State) (w : Who) (va v : Nat) : List (Nat × Nat × Place) → Res
  | [] => .ok 0 s
  | (o, n, p) :: ps =>
      (s.storePart w (va + o) n (fld v (8 * o) (8 * n)) p).bind (fun _ s => State.storeParts s w va v ps)

/-- The parts of an access (R182). A copy hart reaches an io page by accesses of at most 8 bytes (R193). (DEDUCED: log 119) -/
def State.partsFor (s : State) (w : Who) (va n : Nat) : List (Nat × Nat × Nat) :=
  if w.hart then
    (partsOf va n).flatMap (fun p =>
      if p.2.2 = 16 && s.touchesIo w p.1 16 then [(p.1, p.2.1, 8), (p.1 + 8, p.2.1 + 8, 8)] else [p])
  else partsOf va n

/-- What the first of the parts whose walk has to wait waits for. -/
def heldBy (ps : List (Nat × Nat × Place)) : Option Wait :=
  ps.findSome? (fun p => match p.2.2 with
    | .held x => some x
    | _ => none)

/-- A load of `n` bytes (R182): the fault is that of the lowest part that faults, be it only denied on its way. (DESIGN CHOICE: log 25) -/
def State.loadAt (s : State) (w : Who) (va n : Nat) (fresh : Bool) : Res :=
  let r := s.placeAll w (if w.hart then 5 else 0) (s.partsFor w va n)
  match heldBy r.2.1 with
  | some x => .wait x r.1
  | none =>
      (r.1.loadParts w va fresh r.2.1 0).bind (fun v s => match r.2.2 with
        | some f => .flt f s
        | none => .ok v s)

/-- A store of `n` bytes (R182): when a part faults, some of the parts below it, a free number of them, are performed. (DESIGN CHOICE: log 25) -/
def State.storeAt (s : State) (w : Who) (va n v : Nat) : Res :=
  let r := s.placeAll w (if w.hart then 6 else 1) (s.partsFor w va n)
  match heldBy r.2.1 with
  | some x => .wait x r.1
  | none => match r with
  | (s, ps, none) => s.storeParts w va v ps
  | (s, ps, some f) =>
      match s.drew.storeParts w va v (ps.take (Config.freeNat s.free % (ps.length + 1))) with
      | .ok _ s => .flt f s
      | r => r

/-- A read-modify-write of a naturally aligned location (R213, R352). (DESIGN CHOICE: log 25) -/
def State.atomicAt (s : State) (w : Who) (va n : Nat) (f : Nat → Option Nat) : Res :=
  match s.place w 2 va n with
  | (s, .error e) => .flt e s
  | (s, .ok (.held x)) => .wait x s
  | (s, .ok (.io pa _)) => .flt { cause := 8, acc := 2, va := va, pa := pa } s
  | (s, .ok (.mem a)) =>
      (match s.barred w a.ln with
       | some s => .flt { cause := 9, acc := 2, va := va, pa := a.pa } s
       | none => (s.atomicLine a n f).res)
  | (s, .ok (.pad t off)) =>
      match s.gate w.key w.core t with
      | .deny s => .flt { cause := 9, acc := 2, va := va } s
      | .refuse => .wait .oreq s
      | .accept =>
          let s := s.drainSbuf w.core
          let old := s.padGet t off n
          let s := if t = w.core then s
            else s.request w.core (nodeOf t) { kind := 3, size := n, addr := va, fl := w.fl, atom := w.atom, result := bytesOf n old }
          match f old with
          | none => .ok old s
          | some v =>
              let s := if t = w.core && w.thread then s.logPad w.core off n else s
              .ok old (s.padExternal t off n v)

/-- A contribution (R348). A chunk's is held until it commits, so that the oldest chunk stays repairable (R158). -/
def State.contributeAt (s : State) (w : Who) (va n v : Nat) (ty : Ty) : Res :=
  match s.place w 3 va n with
  | (s, .error e) => .flt e s
  | (s, .ok (.mem a)) =>
      if cfmtOf a.cfmt ≠ ty then .flt { cause := 8, acc := 3, va := va, pa := a.pa } s
      else if w.thread && ((s.ring (w.core / 16)).chunkAt (slotOf w.core)).isSome then
        .ok 0 (s.setCore w.core
          { s.core w.core with contribs := (s.core w.core).contribs ++
              [{ key := a.key, pa := a.pa, fmt := a.cfmt, val := v, va := va, pc := (s.core w.core).pc, elem := w.elem }] })
      else
        match s.barred w a.ln with
        | some s =>
            .ok 0 (s.deniedRecord w.core w.key (s.core w.core).pc
              { cause := 9, acc := 3, va := va, pa := a.pa, elem := w.elem })
        | none =>
            match s.available a.tier a.pa n true with
            | (some x, s) => .wait x s
            | (none, s) => .ok 0 (s.contribute w.core a.key a.cfmt a.ln a.off v)
  | (s, .ok (.held x)) => .wait x s
  | (s, .ok _) => .flt { cause := 8, acc := 3, va := va } s

/-! ### Releases and acquires -/

/-- The scope between the core that sent a packet and its target (R202): another device is another package. -/
def Pkt.scope (p : Pkt) : Nat := if p.away.isSome then 8 else scopeBetween p.score p.dcore

/-- A write, atomic or message of a core, sand or not (R68). -/
def Pkt.isWrite (p : Pkt) (c : Nat) : Bool :=
  p.score == c && p.sdev == 0 && p.ref.isNone && p.hart.isNone && (p.kind == 2 || p.kind == 3 || p.kind == 7)

/-- A write, atomic or message of a core that is not yet acknowledged, where a release's scope covers its target (R68, R220). -/
def State.unacked (s : State) (c sc : Nat) : Bool := s.fab.pkts.any (fun p => p.isWrite c && p.scope ≤ sc)

/-- A drain of a core for a line is in progress: sent, or not yet acknowledged. -/
def State.draining (s : State) (c ln : Nat) : Bool :=
  s.msgs.any (fun m => m.line == ln && m.to_ == c && (m.kind == .drain || m.kind == .drainAck))

/-- Records of a line that an acquire in progress is clearing: their cores are being drained (R188). -/
def State.drained_ (s : State) (ln : Nat) : Nat :=
  (s.msgs.filter (fun m => m.line == ln && (m.kind == .drain || m.kind == .drainAck))).length

/-- The soft-class part of a release on a line (R188): recorded at the line's home, or eager. While a drain of the core for the
line is in progress it is recorded afresh, for the acquires that follow: the records that the drain clears leave room (R189). -/
def State.releaseSoft (s : State) (c ln : Nat) (lazy_ : Bool) : State :=
  if !(s.core c).softDirty then s
  else
    let d := s.dir ln
    let present := (d.records.filter (· == c)).length
    if !lazy_ then s.softBackAll c
    else if (if s.draining c ln then 2 else 1) ≤ present then s
    else if d.records.length < 4 + s.drained_ ln then s.putDir ln { d with records := d.records ++ [c] }
    else s.softBackAll c

/-- The line that a synchronisation names, when it is coherent. -/
def State.syncLine (s : State) (w : Who) (va : Nat) : Option At :=
  if 2 ≤ va / 2 ^ 56 % 256 then none
  else match (s.lookup w.core w.key va).2 with
    | .ok l =>
        if l.cls = 0 then
          some { core := w.core, key := l.lineKey, cls := l.cls, cfmt := 0, tier := l.tier,
                 pa := (s.mapLine l (l.frame + (va - l.page))).1, va := va }
        else none
    | .error _ => none

/-- The release before a write, or of `rel.widen`; at scope 0 it has no effect beyond order. From host scope on it is eager:
every earlier write must have reached the host's order (R81, R83, R220). (DEDUCED: log 30) (DESIGN CHOICE: log 120) -/
def State.release (s : State) (w : Who) (va sc : Nat) : State :=
  if sc = 0 then s
  else
    let s := s.drainSbuf w.core
    match s.syncLine w va with
    | some a => s.releaseSoft w.core a.ln (sc < 6)
    | none => s.releaseSoft w.core 0 false

/-- A release of a scope finds that what it has written back has been taken: from host scope on, no write-back waits for the
host (R81, R83, R220). (DESIGN CHOICE: log 120) -/
def State.reached (s : State) (sc : Nat) : Bool := sc < 6 || s.backs.isEmpty

/-- A release write sets the line's tag (R223). (DEDUCED: log 56) -/
def State.setTag (s : State) (w : Who) (va sc : Nat) : State :=
  match s.syncLine w va with
  | some a =>
      s.putDir a.ln { s.dir a.ln with
        tag := some { key := w.key, ring := w.core / 16, scope := sc, line := va % 2 ^ 57 / 128 } }
  | none => s

/-- The scope between a releasing ring and an acquiring core: a ring runs one thread, so within it the release covers. -/
def scopeOfRing (r c : Nat) : Nat := if c / 16 = r then 0 else scopeBetween (16 * r) c

/-- The home drains the cores recorded at a line other than `c` (R188). -/
def State.drainRecords (s : State) (c ln : Nat) : State :=
  let d := s.dir ln
  let recs := d.records.filter (· != c)
  if recs.isEmpty then s
  else
    let s := recs.foldl (fun s o => s.softBackAll o) s
    s.putDir ln { s.dir ln with records := (s.dir ln).records.filter (· == c) }

/-- What the home does before an acquire reads a line (R188, R223): the answer says whether the acquire keeps its
ordering. (DEDUCED: log 90) -/
def State.acquireBegin (s : State) (w : Who) (va sc : Nat) : Bool × State :=
  if sc = 0 then (true, s)
  else match s.syncLine w va with
    | none => (true, s)
    | some a =>
        match (s.dir a.ln).tag with
        | some t =>
            if t.scope < scopeOfRing t.ring w.core && scopeOfRing t.ring w.core ≤ sc then
              let g := s.ring t.ring
              (false, (s.setRing t.ring { g with misses := g.misses ++ [t] }).after
                (.scopeMissEvent (Fin.ofNat 256 t.ring)))
            else (true, s.drainRecords w.core a.ln)
        | none => (true, s.drainRecords w.core a.ln)

/-- The completion of an acquire of scope wider than core (R188). -/
def State.acquireEnd (s : State) (w : Who) (sc : Nat) (ordered : Bool) : State :=
  if sc = 0 || !ordered then s else s.softAcquire w.core

/-- A fence's effect on soft lines and on the instruction cache (R209, R222): kind 0 acquire, 1 release, 2 full. -/
def State.fence (s : State) (c kind sc : Nat) : State :=
  let s := if sc = 0 then s else if kind = 1 then (s.drainSbuf c).softBackAll c else (s.drainSbuf c).softAcquire c
  if kind = 2 then s.setCore c { s.core c with icache := [] } else s

/-! ### How an instruction ends with an access -/

/-- End an instruction of the executing core: `s0` is the state before it, which a waiting instruction keeps but for the
requests it has sent. -/
def Res.finish (r : Res) (k : Nat → State → State) : State :=
  match r with
  | .ok v s => k v s
  | .flt f s => faultTrap [f] s
  | .wait w s => s.waitFor w
  | .err s => s.detected s.cur s.pc

end Sys2Proof.Machine
end

