-- ==== Sys2Proof/Machine/Coherence.lean ====
section
/-! DEFINITION. The rows of the coherence protocol (R164, R183–R191) and of scope-miss events (R224), one message or notice
at a time. A row whose message is not in flight changes nothing. -/

namespace Sys2Proof.Machine

open Sys2Proof

/-! ### Messages -/

/-- The row that delivers a message. -/
def Msg.row (m : Msg) : Instr :=
  match m.kind with
  | .data _ _ => .dataReceipt (Fin.ofNat 4096 m.for_) m.line
  | .inval => .invalidationReceipt (Fin.ofNat 4096 m.to_) m.line
  | .fwd _ => .forwardReceipt (Fin.ofNat 4096 m.to_) m.line
  | .ack => .invalidationAck (Fin.ofNat 4096 m.for_) m.line
  | .drain => .drainRequest (Fin.ofNat 4096 m.to_) m.line
  | .drainAck => .drainAck (Fin.ofNat 4096 m.to_) m.line

/-- Let the messages after the first `n` be delivered. -/
def State.deliverFrom (s : State) (n : Nat) : State := (s.msgs.drop n).foldl (fun s m => s.after m.row) s

/-- Deliver the first message that satisfies a test, and let what it causes be delivered. -/
def State.takeIn (s : State) (f : Msg → Bool) : State :=
  match s.takeMsg f with
  | none => s
  | some (m, t) => (t.deliverMsg m).deliverFrom t.msgs.length

/-- The coherence state of a core's line. -/
def State.cohOf (s : State) (c ln : Nat) : LCoh := ((s.line c ln).getD {}).coh

/-- A core requests a line whose coherence state is as a test asks, unless its request is under way. -/
def State.requestIf (s : State) (c ln : Nat) (k : ReqKind) (ok : LCoh → Bool) : State :=
  let asked := s.pends.any (fun p => p.core == c && p.line == ln) || (s.dir ln).busy.any (fun q => q.1 == c) ||
    (s.dir ln).queue.any (fun q => q.1 == c)
  let soft := ((s.line c ln).getD {}).soft
  if asked || soft || !ok (s.cohOf c ln) then s else (s.homeRequest c k ln).deliverFrom s.msgs.length

/-- GETS (R184): a read miss reaches the home. -/
def execGets (core : Fin 4096) (line : Nat) (s : State) : Out :=
  .next (s.requestIf core.val line .getS (· == .inv))

/-- GETX (R184): a write miss reaches the home. -/
def execGetx (core : Fin 4096) (line : Nat) (s : State) : Out :=
  .next (s.requestIf core.val line .getX (· == .inv))

/-- UPG (R184, R185): a write to a shared copy; from a core no longer among the sharers it is served as GetX. -/
def execUpg (core : Fin 4096) (line : Nat) (s : State) : Out :=
  .next (s.requestIf core.val line .upg (· != .own))

/-- An ordinary copy in a state leaves the cache with its notice to the home. -/
def State.evictIf (s : State) (c ln : Nat) (coh : LCoh) : State :=
  match s.line c ln with
  | some l => if l.st == .n && !l.soft && l.coh == coh then (s.evictN c ln).deliverFrom s.msgs.length else s
  | none => s

/-- PUTS (R184, R185). (DESIGN CHOICE: log 31) -/
def execPuts (core : Fin 4096) (line : Nat) (s : State) : Out := .next (s.evictIf core.val line .sh)

/-- PUTX (R184, R185): the data is at the home. (DESIGN CHOICE: log 31) -/
def execPutx (core : Fin 4096) (line : Nat) (s : State) : Out := .next (s.evictIf core.val line .own)

/-- INVALIDATION_RECEIPT (R143, R185, R186). -/
def execInvalidationReceipt (core : Fin 4096) (line : Nat) (s : State) : Out :=
  .next (s.takeIn (fun m => m.kind == .inval && m.to_ == core.val && m.line == line))

/-- FORWARD_RECEIPT (R184). -/
def execForwardReceipt (core : Fin 4096) (line : Nat) (s : State) : Out :=
  .next (s.takeIn (fun m => (m.kind == .fwd true || m.kind == .fwd false) && m.to_ == core.val && m.line == line))

/-- INVALIDATION_ACK (R184): counted at the requester. -/
def execInvalidationAck (core : Fin 4096) (line : Nat) (s : State) : Out :=
  .next (s.takeIn (fun m => m.kind == .ack && m.for_ == core.val && m.line == line))

/-- A message with data or a grant. -/
def Msg.isData (m : Msg) : Bool :=
  match m.kind with
  | .data _ _ => true
  | _ => false

/-- DATA_RECEIPT (R184). -/
def execDataReceipt (core : Fin 4096) (line : Nat) (s : State) : Out :=
  .next (s.takeIn (fun m => m.isData && m.for_ == core.val && m.line == line))

/-! ### Homes, soft lines, drains and partials -/

/-- A home lets go of a line of which no copy is left; an independent one reaches memory once the host has let go of the line (R174). (DEDUCED: log 93) -/
def State.endHome (s : State) (line : Nat) : State :=
  match Table.get? s.lineHomes line with
  | none => s
  | some code =>
      if (Table.get? s.splits (realLine line)).isNone then s.leaveHome line
      else
        let a := s.needAt (4 * 4096 ≤ code) (2 * realLine line) true
        let b := a.2.needAt (4 * 4096 ≤ code) (2 * realLine line + 1) true
        if a.1.isSome || b.1.isSome then b.2 else b.2.leaveHome line

/-- DIRECTORY_EVICTION (R164, R192): what is in progress on the line ends first; then partials are combined and every copy
is recalled. -/
def execDirectoryEviction (line : Nat) (s : State) : Out :=
  let s := s.settle line settleFuel
  .next (((s.combineLine (s.dir line).ckey line).recall line true).endHome line)

/-- SOFT_WRITE_BACK (R187). -/
def execSoftWriteBack (core : Fin 4096) (line : Nat) (s : State) : Out := .next (s.softBack core.val line)

/-- DRAIN_REQUEST (R188). -/
def execDrainRequest (core : Fin 4096) (line : Nat) (s : State) : Out :=
  .next (s.takeIn (fun m => m.kind == .drain && m.to_ == core.val && m.line == line))

/-- DRAIN_ACK (R188). -/
def execDrainAck (core : Fin 4096) (line : Nat) (s : State) : Out :=
  .next (s.takeIn (fun m => m.kind == .drainAck && m.to_ == core.val && m.line == line))

/-- PARTIAL_EVICTION (R191): the home holds the partial as that core's. -/
def execPartialEviction (core : Fin 4096) (line : Nat) (s : State) : Out :=
  let k := s.core core.val
  .next (match Table.get? k.partials line with
    | none => s
    | some (_, p) =>
        let s := s.setCore core.val { k with partials := Table.erase k.partials line }
        s.putDir line { s.dir line with held := Table.put (s.dir line).held core.val p })

/-! ### Scope misses (R223, R224) -/

/-- `smev` after an event: with v set it is counted as lost, else it is held. (DEDUCED: log 90) -/
def smevAfter (w : Word) (t : RelTag) : Word :=
  if w.getLsbD 63 then setFld w 56 7 (min (fld w.toNat 56 7 + 1) 127)
  else setFld (setFld (setBit w 63 true) 50 4 t.scope) 0 50 t.line

/-- SCOPE_MISS_EVENT: recorded by a ring whose resident key is the tag's, for its thread, parked or running; one that sets
v raises the interrupt when ie is set, for a parked thread when it resumes. (DEDUCED: log 90) -/
def execScopeMissEvent (ring : Fin 256) (s : State) : Out :=
  let r := ring.val
  let g := s.ring r
  .next (match g.misses with
    | [] => s
    | t :: ts =>
        let g : Ring := { g with misses := ts }
        let s := s.setRing r g
        if g.key != t.key then s
        else match g.thread, g.parked with
          | none, some p =>
              let w := smevAfter p.smev t
              s.setRing r { g with parked := some { p with
                smev := w, smevAt := if p.smev.getLsbD 63 then p.smevAt else w,
                smevIntr := p.smevIntr || (!p.smev.getLsbD 63 && w.getLsbD 55) } }
          | _, _ =>
              let w := smevAfter g.smev t
              if g.smev.getLsbD 63 then s.setRing r { g with smev := w }
              else
                let s := s.setRing r { g with smev := w, smevAt := w }
                if w.getLsbD 55 then s.after (.interruptDelivery ring .scopeMiss) else s)

end Sys2Proof.Machine
end

