-- ==== Sys2Proof/Machine/Operands.lean ====
section
/-! DEFINITION. Operand forms: reading and writing scalar operands by type (R307, R323), the rounding mode in force
(R273, R274), the stochastic bits of an instruction (R276), addresses (R342), and the tests that come before a memory
access is performed (R193, R235, R258). -/

namespace Sys2Proof.Machine

open Sys2Proof

/-! ### Scalar operands -/

/-- A register read as an integer of a type (R323, R328). -/
def Word.int (w : Word) (t : Ty) : Int := readInt t w.toNat

/-- A `w`-bit result as a scalar register holds it: sign-extended for `.i` types, else zero-extended (R307). -/
def extendTy (t : Ty) (v : Nat) : Word :=
  if t.isI then BitVec.ofInt 64 (readInt t v) else wd (v % 2 ^ t.width)

/-- An integer result cut to its type (R328). -/
def resultOf (t : Ty) (v : Int) : Word := extendTy t (truncI v t.width)

/-- A truth value. -/
def truth (b : Bool) : Word := if b then 1 else 0

/-- `x(a) + sext(imm32)` modulo 2^64 (R342). -/
def State.ea (s : State) (a : Reg) (imm : BitVec 32) : Nat := (s.x a + sext32 imm).toNat

/-! ### Rounding -/

/-- Rounding mode of a scalar instruction from its code (R273): code 6 is `frm`; stochastic outside narrowing conversions
rounds to nearest even. -/
def Core.scalarMode (c : Core) (rm : Fin 8) (narrow : Bool) : Nat :=
  let m := if rm.val = 6 then c.frm else rm.val
  if m = 5 ∧ !narrow then 0 else m

/-- Rounding mode of a vector or matrix instruction: code 6 is the rounding field of `vtype`. -/
def Core.vectorMode (c : Core) (rm : Fin 8) (narrow : Bool) : Nat :=
  let m := if rm.val = 6 then fld c.vtype.toNat 0 3 else rm.val
  if m = 5 ∧ !narrow then 0 else m

/-- The seed of R276: `srseed` as it stood when the outermost fork level in use was pushed, else `srseed` now. -/
def Core.seed (c : Core) : Word :=
  match c.levels.getLast? with
  | some l => l.seed
  | none => c.srseed

/-- The random bits of element `i` of the instruction at pc (R276). -/
def Core.random (c : Core) (i src : Nat) : Nat :=
  stochastic c.seed c.pc (c.levels.reverse.map (·.iter)) i src

/-- The environment of a scalar floating-point instruction: it never flushes (R279, R333). -/
def Core.scalarEnv (c : Core) (t : Ty) (rm : Fin 8) : FEnv :=
  { f := fmtOf t, mode := c.scalarMode rm false, fz := false }

/-! ### Vector configuration (R367, R368) -/

/-- `mvl` for a width (R368). -/
def Core.mvlAt (c : Core) (w : Nat) : Nat := c.lanes * 64 / w

/-- `setvl`: the lane count follows the working lanes, and `vl` is cut to `mvl`. -/
def Core.setVl (c : Core) (n : Nat) : Core :=
  let c := { c with lanes := c.working }
  { c with vl := min n c.mvl }

/-- `setvt`: a rounding code of 6 or 7 leaves that field unchanged. -/
def Core.setVt (c : Core) (w : Word) : Core :=
  let rm := if 6 ≤ fld w.toNat 0 3 then fld c.vtype.toNat 0 3 else fld w.toNat 0 3
  let c := { c with vtype := wd (fld w.toNat 8 1 * 256 + fld w.toNat 4 2 * 16 + rm) }
  { c with vl := min c.vl c.mvl }

/-! ### Tests before an access -/

/-- A recovery region is open and the handler does not run (R226, R258). -/
def State.inRegion (s : State) : Bool := !s.me.handler && s.me.depth != 0

/-- The core runs a speculative chunk's own code. -/
def State.specThread (s : State) : Bool := s.speculative && !s.me.handler

/-- The accesses of an instruction, each of `n` bytes, that no recovery region may make: to io pages, and stores to other
scratchpads (R258). They are an instruction's active elements or rows (R396, R412), and the access of a scalar instruction whatever its
guard (R235). (DEDUCED: log 75) -/
def State.regionOk (s : State) (vas : List Nat) (n : Nat) (store : Bool) (k : State → State) : State :=
  if s.inRegion && vas.any (fun va => s.touchesIo s.who va n || (store && s.foreignPad s.cur va)) then irrevocable s else k s

/-- A window address of the executing core's own scratchpad. -/
def State.ownPad (s : State) (va : Nat) : Bool := va / 2 ^ 56 % 256 == 0xFE && !s.foreignPad s.cur va

/-- Accesses that may leave the core wait at issue when all outstanding-request entries are in use (R65); those of its own
scratchpad never leave it. (DEDUCED: log 58) -/
def entryFree (s : State) (vas : List Nat) (k : State → State) : State :=
  if 64 ≤ s.me.oreqs.length && !vas.all s.ownPad then s.waitFor .oreq else k s

/-- The tests on the active accesses of an instruction, each of `n` bytes, before any of them is performed, in the order
of R235: alignment, of io accesses (R193) and, where `must` is set, of all; and the commit point of an io access in a
speculative chunk (R155). `row` marks accesses that no io page may hold at all. -/
def State.screen (s : State) (vas : List Nat) (n : Nat) (row must : Bool) (k : State → State) : State :=
  let io (va : Nat) : Bool := s.touchesIo s.who va n
  match vas.find? (fun va => (must && va % n != 0) || (io va && (row || va % n != 0 || 8 < n))) with
  | some va => alignTrap (wd va) s
  | none =>
      entryFree s vas (fun s =>
        if vas.any io then (if s.specThread then s.waitFor .commitPoint else k s.unrepairable) else k s)

/-- A synchronising access or instruction of scope wider than core: trap 0x0F with a region open (R258). -/
def wideSync (wide : Bool) (s : State) (k : State → State) : State := if wide && s.inRegion then irrevocable s else k s

/-- The sticky faults of R234, for a release of scope wider than core. -/
def stickyIf (wide : Bool) (s : State) (k : State → State) : State := if wide then sticky s k else k s

/-- A release of a scope that names no line: what the thread has written is written back, and earlier messages are acknowledged
(R68, R188, R220). -/
def releaseAll (sc : Nat) (s : State) (k : State → State) : State :=
  if sc = 0 then k s
  else
    let s := (s.drainSbuf s.cur).softBackAll s.cur
    if !s.reached sc || s.unacked s.cur sc then s.waitFor .release else k s

/-- A commit point where a condition holds (R154); the handler's instructions are no part of a chunk. (DEDUCED: log 29) -/
def commitIf (wide : Bool) (s : State) (k : State → State) : State :=
  if !wide || s.me.handler then k s else commitPoint s k

end Sys2Proof.Machine
end

