-- ==== Sys2Proof/Machine/Fabric.lean ====
section
/-! DEFINITION. The torus and UALink at work: routing with deflection (R47, R48, R50), checks and answers of packets (R49, R53, R55,
R123), the sand class (R50–R52), appending to receive ring buffers (R198), what other devices ask of this one (R64, R71, R73),
and the UALink ports (R35, R36, R61, R71, R72). -/

namespace Sys2Proof.Machine

open Sys2Proof

/-! ### Routing (R47, R48, R50) -/

/-- Higher priority (R47). -/
def Flit.beats (a b : Flit) : Bool :=
  if a.age != b.age then b.age < a.age
  else if a.src != b.src then a.src < b.src
  else if a.dst != b.dst then a.dst < b.dst
  else if a.lane != b.lane then a.lane < b.lane
  else (let d := (b.seq + 256 - a.seq) % 256; 1 ≤ d && d ≤ 127)

/-- Put a flit in its place in order of priority. -/
def insertFlit (f : Flit) : List Flit → List Flit
  | [] => [f]
  | g :: gs => if f.beats g then f :: g :: gs else g :: insertFlit f gs

/-- A flit still waits at its source. -/
def Flit.waiting (f : Flit) : Bool := f.inp.isNone

/-- The flits of a packet have been put at its source, and it is not acknowledged. -/
def Pkt.sent (p : Pkt) : Bool :=
  match p.phase with
  | .queued | .forming | .waiting | .lost => false
  | _ => true

/-- Unacknowledged flits of a stream that have been injected (R46): those put at its source, less those that still wait there. (DEDUCED: log 96) -/
def State.inFlight (s : State) (f : Flit) : Nat :=
  let put := (s.fab.pkts.filter (fun p => p.src == f.src && p.dst == f.dst && p.lane == f.lane && p.sent)).foldl
    (fun n p => n + 1 + popcount 64 p.came.toNat) 0
  put - (s.fab.flits.filter (fun g => g.waiting && g.src == f.src && g.dst == f.dst && g.lane == f.lane)).length

/-- A block of a sand packet is lost; a window with nothing more to come ends. -/
def State.loseBlock (s : State) (pid block : Nat) : State :=
  match s.pkt pid with
  | none => s
  | some p =>
      let p := { p with gone := setBit p.gone block true }
      let s := s.setPkt p
      if p.settled && p.open_ then s.after (.sandWindowEnd pid) else s

/-- Count a late sand flit (R51). -/
def State.late (s : State) (n : Nat) : State := { s with fab := { s.fab with sandLateN := countUp s.fab.sandLateN n 0 } }

/-- A thread of the packet's key is parked on the ring. -/
def Ring.parkedKey (g : Ring) (key : Nat) : Bool :=
  match g.parked with
  | some p => p.thread.key == key
  | none => false

/-- A packet is for the scratchpad or the buffers of a core, and no access to memory. -/
def Pkt.forPad (p : Pkt) : Bool := p.kind == 7 || p.origin.isSome || p.addr / 2 ^ 56 % 256 == 0xFE

/-- A data flit of a packet takes the local port of its destination. A sand one must have a key that is a member there (R55), and is
dropped while the thread it is for is parked (R123); one that comes after its packet has closed is late (R51). -/
def State.arriveData (s : State) (f : Flit) (p : Option Pkt) : State :=
  let b := f.block - 1
  if f.cls = 5 && !s.memberN f.dst f.key then (s.dropAt f.dst f.key).loseBlock f.pid b
  else match p with
  | none => if f.cls = 5 then s.late f.dst else s
  | some p =>
      if !p.pending || p.gone.getLsbD b then (if f.cls = 5 then s.late f.dst else s)
      else if f.cls = 5 && p.ref.isNone && p.forPad && p.key != 0 && (s.ring (p.dcore / 16)).parkedKey p.key then s.loseBlock f.pid b
      else
        let p := { p with arrived := setBit p.arrived b true }
        (s.setPkt p).check p

/-- A flit takes the local port of its destination. -/
def State.arrive (s : State) (f : Flit) : State :=
  match s.pkt f.pid with
  | some p =>
      if f.block = 0 then
        let p := { p with head := true }
        (s.setPkt p).check p
      else s.arriveData f (some p)
  | none => if f.block = 0 then s else s.arriveData f none

/-- Remove one flit from the network. -/
def State.takeFlit (s : State) (f : Flit) : State := { s with fab := { s.fab with flits := s.fab.flits.erase f } }

/-- Move a flit through a port, behind those on their way there: every hop adds 1 to its age. (DESIGN CHOICE: log 24) -/
def State.moveFlit (s : State) (f : Flit) (n port : Nat) : State :=
  let to_ := portTo n port
  let g := { f with at_ := to_, inp := some port, plane := port % 2, age := min (f.age + 1) 1023 }
  ({ s with fab := { s.fab with flits := s.fab.flits.erase f ++ [g] } }).route to_

/-- The port a flit is given among those still free: the first productive one, else any. (DESIGN CHOICE: log 24) -/
def State.choosePort (s : State) (n dst : Nat) (free : List Nat) : Option Nat × State :=
  match free.find? (productive n dst) with
  | some p => (some p, s)
  | none => if free.isEmpty then (none, s) else (free[Config.freeNat s.free % free.length]?, s.drew)

/-- The flits that reach a node in this cycle: one through each port (R47). A router stores none: those behind them are still on the
link. (DESIGN CHOICE: log 24) -/
def State.reaching (s : State) (n : Nat) : List Flit :=
  ports.filterMap (fun p => s.fab.flits.find? (fun f => f.at_ == n && f.inp == some p))

/-- Place the flits that reach a node, in order, each on its own plane: the ports left, and the planes of the local port left. Four
flits at most come on a plane, which has four ports, so each of them finds one. -/
def State.place_ (s : State) (n : Nat) : List Flit → List Nat → List Nat → State × List Nat × List Nat
  | [], free, loc => (s, free, loc)
  | f :: fs, free, loc =>
      if f.cls = 5 ∧ 4 * f.dl < f.age then
        let s := { s with fab := { s.fab with dropSandN := countUp s.fab.dropSandN n 0 } }
        State.place_ ((s.takeFlit f).loseBlock f.pid (f.block - 1)) n fs free loc
      else if 6 ≤ f.cls then State.place_ ((s.takeFlit f).dropAt n f.key) n fs free loc
      else if f.dst = n ∧ loc.contains f.plane then
        State.place_ ((s.takeFlit f).arrive f) n fs free (loc.filter (· != f.plane))
      else
        match s.choosePort n f.dst (free.filter (fun p => p % 2 == f.plane)) with
        | (some p, s) => State.place_ (s.moveFlit f n p) n fs (free.filter (· != p)) loc
        | (none, s) => State.place_ (s.route n) n fs free loc

/-- Inject waiting flits into the ports left free, at most one on each plane of the ring's local port (R41, R47); the answer says
whether one was injected and whether one found no port. -/
def State.fillPorts (s : State) (n : Nat) : List Flit → List Nat → List Nat → List Nat → State × Bool × Bool
  | [], _, _, _ => (s, false, false)
  | f :: fs, free, loc, planes =>
      if planes.isEmpty then (s.route n, false, false)
      else if 128 ≤ s.inFlight f then State.fillPorts s n fs free loc planes
      else if f.dst = n then
        match planes.find? loc.contains with
        | none => (s.route n, false, true)
        | some q =>
            let r := State.fillPorts ((s.takeFlit f).arrive f) n fs free (loc.filter (· != q)) (planes.filter (· != q))
            (r.1, true, r.2.2)
      else
        match s.choosePort n f.dst (free.filter (fun p => planes.contains (p % 2))) with
        | (some p, s) =>
            let r := State.fillPorts (s.moveFlit f n p) n fs (free.filter (· != p)) loc (planes.filter (· != p % 2))
            (r.1, true, r.2.2)
        | (none, s) => (s.route n, false, true)

/-- ROUTER_CYCLE (R47): place the flits that reach a node, then inject, unless a neighbour starves. (DEDUCED: log 96) -/
def execRouterCycle (n : Fin 256) (s : State) : Out :=
  let n := n.val
  let moving := (s.reaching n).foldl (fun l f => insertFlit f l) []
  let r := s.place_ n moving ports [0, 1]
  let s := if (r.1.reaching n).isEmpty then r.1 else r.1.route n
  .next (
    if (neighbours n).any (fun m => s.fab.starve.getLsbD m) then s
    else
      let q := s.fillPorts n (s.fab.flits.filter (fun f => f.at_ == n && f.waiting)) r.2.1 r.2.2 [0, 1]
      let s := q.1
      if q.2.1 then
        let was := s.fab.starve.getLsbD n
        let s := { s with fab := { s.fab with
          starve := setBit s.fab.starve n false, blocked := Table.erase s.fab.blocked n } }
        if was then (neighbours n).foldl (fun s m => s.route m) s else s
      else if q.2.2 then
        let b := Table.get s.fab.blocked n 0 + 1
        let s := { s with fab := { s.fab with blocked := Table.put s.fab.blocked n b } }
        if b = 128 then s.after (.starve (Fin.ofNat 256 n)) else s
      else s)

/-- STARVE (R48): a node that found no free port for 128 cycles stops its neighbours' injection. (DEDUCED: log 96) -/
def execStarve (n : Fin 256) (s : State) : Out :=
  .next (if 128 ≤ Table.get s.fab.blocked n.val 0 then
      { s with fab := { s.fab with starve := setBit s.fab.starve n.val true } }
    else s)

/-! ### Receive ring buffers (R197–R199) -/

/-- Occupied bytes. -/
def Rb.occ (r : Rb) : Nat := (r.tail + 2 ^ 19 - r.head) % 2 ^ 19

/-- Size in bytes. -/
def Rb.size (r : Rb) : Nat := 4096 * 2 ^ r.lsz

/-- A receive buffer of a core. -/
def State.buf (s : State) (c : Nat) (n : Fin 4) : Rb := (s.core c).rb.get n

/-- Bytes of the entry for a payload: the header and whole blocks. -/
def entryBytes (len : Nat) : Nat := 64 + (len + 63) / 64 * 64

/-- There is room for an entry. -/
def Rb.hasRoom (r : Rb) (len : Nat) : Bool := r.en && entryBytes len ≤ r.size - r.occ

/-- The words of a packet's entry, blocks marked by `mask` (R198). -/
def Pkt.entry (p : Pkt) (mask : BitVec 64) : List Nat :=
  let len := p.payload.length
  let block (b : Nat) : List Byte := (p.payload.drop (64 * b)).take 64
  let body (b : Nat) : List Nat := (List.range 8).map (fun i =>
    if mask.getLsbD b then ofBytes (((block b).drop (8 * i)).take 8) else 0)
  [p.sdev % 4096 * 2 ^ 36 + p.score % 4096 * 2 ^ 24 + len % 8192, mask.toNat, p.mseq % 2 ^ 32 * 2 ^ 32 + bitN p.sand,
    p.tag.toNat, 0, 0, 0, 0] ++ (List.range p.blocks).flatMap body

/-- Write an entry at a buffer's tail, wrapping at its size, and advance the tail; a waiting `mwait` is told. -/
def State.append (s : State) (c : Nat) (n : Fin 4) (ws : List Nat) : State :=
  let b := s.buf c n
  let s := (ws.zipIdx).foldl (fun s e => s.padExternal c (b.base * 4096 + (b.tail + 8 * e.2) % b.size) 8 e.1) s
  let k := s.core c
  let s := s.setCore c { k with rb := k.rb.set n.val { b with tail := (b.tail + 8 * ws.length) % 2 ^ 19 } n.isLt }
  match k.wait with
  | .mwait _ => s.after (.mwaitWake (Fin.ofNat 4096 c))
  | _ => s

/-- Count a message discarded for want of room (R199). -/
def State.overflowed (s : State) (c : Nat) (n : Fin 4) : State :=
  let k := s.core c
  s.setCore c { k with rbovf := setFld k.rbovf (16 * n.val) 16 (min (fld k.rbovf.toNat (16 * n.val) 16 + 1) 0xFFFF) }

/-- Append the messages that a replay has recorded for a core, up to the position its thread has reached (R260). (DEDUCED: log 47) -/
def State.feed (s : State) (c : Nat) : Nat → State
  | 0 => s
  | fuel + 1 =>
      let g := s.ring (c / 16)
      match g.thread with
      | none => s
      | some t =>
          match (if s.replaying c then s.capNext (s.recd t.job t.record) c else none) with
          | some (_, 1, pos, body) =>
              let n : Fin 4 := Fin.ofNat 4 (body.headD 0)
              if g.posAt (slotOf c) < pos ∨ !(s.buf c n).hasRoom (8 * (body.drop 2).length - 64) then s
              else State.feed ((s.capTake t.job t.record 1 c pos).2.append c n (body.drop 2)) c fuel
          | _ => s

/-- Append the recorded messages of every core of a ring. -/
def State.feedRing (s : State) (r : Nat) : State :=
  if s.replaying (16 * r) then (List.range 16).foldl (fun s i => s.feed (16 * r + i) 256) s else s

/-- Deliver a message: its entry is appended and captured; a replay discards it (R260). -/
def State.deliver (s : State) (p : Pkt) (mask : BitVec 64) : State :=
  if s.replaying p.dcore then s.ack p mask else
  let ws := p.entry mask
  let r := s.input p.dcore 0x01 (8 * (ws.length + 2)) (p.buf.val :: 0 :: ws)
  (r.2.append p.dcore p.buf (r.1.drop 2)).ack p mask

/-- A packet is refused, to be sent again (R53, R123, R124): every microsecond, of which only the tries that can succeed
change anything. (DEDUCED: log 23) -/
def State.hold (s : State) (p : Pkt) : State :=
  s.setPkt { p with
    phase := .held, head := false, open_ := false, again := true, gone := if p.sand then p.full &&& ~~~p.arrived else p.gone }

/-- What a core's node says to a packet for its scratchpad or buffers (R123): refused while a thread of its key is parked there,
denied when the key is not the ring's. -/
def State.byKey (s : State) (p : Pkt) (k : State → State) : State :=
  let g := s.ring (p.dcore / 16)
  if p.key != 0 && g.parkedKey p.key then s.hold p
  else if p.key != 0 && g.key != p.key then (s.dropAt p.dst p.key).denyPkt p
  else k s

/-- A message at its receiver (R53, R123, R124). (DEDUCED: log 97) -/
def State.receiveMessage (s : State) (p : Pkt) : State :=
  s.byKey p (fun s =>
    let b := s.buf p.dcore p.buf
    if (s.core p.dcore).deaf then s.hold p
    else if !b.hasRoom p.payload.length then
      (if p.sand then (s.overflowed p.dcore p.buf).ack p 0 else s.hold p)
    else if p.settled then s.deliver p (p.arrived &&& p.full)
    else s.setPkt { p with open_ := true })

/-! ### What another device asks (R64, R71, R73) -/

/-- The new value of a remote atomic; none where compare-and-swap writes nothing. -/
def remoteOp (t : Ty) (op old b b2 : Nat) : Option Nat :=
  let f := fmtOf t
  let dbl := decide (t = .f64)
  let m := 2 ^ t.width
  match op with
  | 0 => some (if t.isFp then combine (if dbl then 0 else 1) old b else (old + b) % m)
  | 1 => some (old &&& b)
  | 2 => some (old ||| b)
  | 3 => some (old ^^^ b)
  | 4 => some b
  | 5 => if old = b then some b2 else none
  | 6 =>
      if t.isFp then
        some (if (f.value old).isNan || (f.value b).isNan then (f.nanRes 0).bits
          else (fpMinMax false (plainEnv f) old b).bits)
      else some (if readInt t old ≤ readInt t b then old else b)
  | _ =>
      if t.isFp then some (combine (if dbl then 4 else 5) old b)
      else some (if readInt t old ≤ readInt t b then b else old)

/-- This device implements a remote atomic (R73). (DESIGN CHOICE: log 16) -/
def atomServed (o : AtomOp) : Bool :=
  o.op < 8 &&
    (if o.ty.isFp then (o.ty.width == 32 || o.ty.width == 64) && Config.revision != 1 && (o.op == 0 || 6 ≤ o.op)
     else o.ty.isInt && (o.ty.width == 32 || o.ty.width == 64))

/-- The payload of a packet with zeros for its missing blocks (R51). -/
def Pkt.sifted (p : Pkt) (mask : BitVec 64) : List Byte :=
  ((List.range p.blocks).flatMap (fun b => if mask.getLsbD b then p.dataFlit b else List.replicate 64 0)).take p.payload.length

/-- A put, a get or a remote atomic of another device at the scratchpad it names: denied outside it, where the core's mask does not
permit the copy (R64), and in the context area (R240); an atomic that this device does not implement does nothing (R73). (DEDUCED: log 19, 64) -/
def State.serve (s : State) (p : Pkt) : State :=
  s.byKey p (fun s =>
    let off := p.addr % 2 ^ 32
    match p.kind, p.atom with
    | 8, _ =>
        let n := p.payload.length
        if 0x40000 < off + n || !(s.core p.dcore).cpmask.getLsbD (p.score / 128 % 32) then s.denyPkt p
        else if !p.settled then s.setPkt { p with open_ := true }
        else
          let mask := p.arrived &&& p.full
          (s.padExternal p.dcore off n (ofBytes (p.sifted mask))).ack p mask
    | 3, some o =>
        let n := o.ty.width / 8
        if !atomServed o then s.answer p .acked { kind := 11, mask := 0, data := [] }
        else if 0x40000 < off + n || off % n != 0 then s.denyPkt p
        else
          let old := s.padGet p.dcore off n
          let s := match remoteOp o.ty o.op old (o.b % 2 ^ o.ty.width) (o.b2 % 2 ^ o.ty.width) with
            | some v => s.padExternal p.dcore off n v
            | none => s
          s.answer p .acked { kind := 4, mask := 0, data := bytesOf n old }
    | _, _ =>
        if 0x60000 < off + p.size then s.denyPkt p
        else s.answer p .acked { kind := 4, mask := BitVec.ofNat 64 (2 ^ ((p.size + 63) / 64) - 1),
                                 data := bytesOf p.size (s.padGet p.dcore off p.size) })

/-! ### UALink ports -/

/-- Count a packet dropped at a UALink port (R55). -/
def State.dropPort (s : State) (p key : Nat) : State :=
  { s with fab := { s.fab with dropKeyP := countUp s.fab.dropKeyP p key } }

/-- Transactions wait at a UALink port. -/
def State.queueTx (s : State) (p : Nat) (ts : List UalTx) : State :=
  let u := s.dev.port p
  ({ s with dev := s.dev.setPort p { u with queue := u.queue ++ ts } }).after (.ualinkFlitTransmit (Fin.ofNat 24 p))

/-- Pieces of up to 256 bytes of a payload, with their offsets. -/
def piecesOf (bs : List Byte) : List (Nat × List Byte) :=
  (List.range ((bs.length + 255) / 256)).map (fun i => (256 * i, (bs.drop (256 * i)).take 256))

/-- The blocks of a payload that are present, with their offsets. -/
def presentBlocks (mask : BitVec 64) (bs : List Byte) : List (Nat × List Byte) :=
  ((List.range ((bs.length + 63) / 64)).filter (fun b => mask.getLsbD b)).map (fun b => (64 * b, (bs.drop (64 * b)).take 64))

/-- The head of a packet for another device (R71); its 64 bytes are `Pkt.headBytes`. -/
def Pkt.ualHead (p : Pkt) : UalHead :=
  { kind := p.kind, core := p.dcore, buf := p.buf, score := p.score, mseq := BitVec.ofNat 32 p.mseq, tag := p.tag,
    len := p.payload.length, sand := p.sand, sdl := p.sdl, off := p.addr % 2 ^ 32, size := p.size, atom := p.atom }

/-- The transactions of a packet: its head, then its payload in pieces of up to 256 bytes, or the blocks of a sand one that have come
so far (R71, R72). (DEDUCED: log 21) -/
def Pkt.txs (p : Pkt) (dev : Nat) : List UalTx :=
  let tx (b : UalBody) : UalTx := { dev := dev, key := p.key, id := p.pid, own := true, body := b }
  tx (.head p.ualHead) ::
    (if p.sand then (presentBlocks p.arrived p.payload).map (fun e => tx (.data true e.1 e.2))
     else (piecesOf p.payload).map (fun e => tx (.data false e.1 e.2)))

/-- A packet at the node of its UALink port: its key is checked there (R54, R55), and its transactions wait for the port; it is
acknowledged when the other device has answered. -/
def State.toPort (s : State) (p : Pkt) (dev port : Nat) : State :=
  if !s.memberP port p.key then (s.dropPort port p.key).denyPkt p
  else if !p.settled then s.setPkt { p with open_ := true }
  else ((s.setPkt { p with phase := .away, open_ := false }).queueTx port (p.txs dev)).checkNext p

/-- The request of an access inside the package, which was checked and performed when it was asked for. (DEDUCED: log 26) -/
def Pkt.performed (p : Pkt) : Bool := p.away.isNone && p.origin.isNone && p.hart.isNone && p.kind ≤ 3

/-- A checked packet at its destination (R53, R55, R123, R124). The request of an access that has been performed is answered, with
what it has read. (DEDUCED: log 26, 97) -/
def State.receive (s : State) (p : Pkt) : State :=
  if p.performed then
    s.answer p .acked { kind := if p.kind = 2 then 5 else 4, mask := BitVec.ofNat 64 (2 ^ ((p.result.length + 63) / 64) - 1),
                        data := p.result }
  else if !s.memberN p.dst p.key then (s.dropAt p.dst p.key).denyPkt p
  else match p.away with
  | some (dev, port) => s.toPort p dev port
  | none =>
      if p.kind = 7 then s.receiveMessage p
      else if p.origin.isSome then s.serve p
      else if !p.settled then s.setPkt { p with open_ := true }
      else s.answer p .acked { kind := 5, mask := p.arrived &&& p.full, data := [] }

/-! ### Answers -/

/-- What a sand answer brings is what has arrived of it (R51, R72). -/
def State.siftReply (s : State) (p : Pkt) (ref : Nat) : State :=
  match s.pkt ref with
  | some q => s.setPkt { q with reply := q.reply.map (fun r => { r with mask := r.mask &&& p.arrived, data := p.sifted p.arrived }) }
  | none => s

/-- An answer reaches the source of what it answers, whose port checks its key as of every packet; a denied packet it accepts (R54,
R55). The data of a sand get open a window there (R51, R72). The event of the source follows. (DEDUCED: log 22) -/
def State.accept_ (s : State) (p : Pkt) (ref : Nat) : State :=
  if p.kind != 6 && !s.memberN p.dst p.key then
    let s := ((s.dropAt p.dst p.key).removePkt p.pid).checkNext p
    match s.pkt ref with
    | some q => s.setPkt { q with phase := .lost }
    | none => s
  else if p.sand && !p.settled then s.setPkt { p with open_ := true }
  else
    let s := if p.sand then s.siftReply p ref else s
    let s := ((s.removePkt p.pid).route p.src).checkNext p
    if p.kind = 10 then s.after (.refusedReceipt ref)
    else if p.kind = 6 then s.after (.deniedReceipt ref)
    else s.after (.acknowledgeReceipt ref)

/-- Close a sand packet with the blocks that have arrived (R51). (DEDUCED: log 97) (DESIGN CHOICE: log 110) -/
def State.closeSand (s : State) (p : Pkt) : State :=
  let p := { p with gone := p.full &&& ~~~p.arrived }
  match p.ref with
  | some q => s.accept_ p q
  | none => s.receive p

/-- The sequence number of the first flit of a packet that fails a check (R49): that of its head when the crc alone fails. -/
def Pkt.failedSeq (p : Pkt) (flips : List (Nat × Nat)) : Nat :=
  (p.seq + ((List.range (p.blocks + 1)).find? (fun b => !parityHolds flips b)).getD 0) % 256

/-- PACKET_ARRIVAL (R49): a packet that is whole at its destination, or the head of a sand packet, is checked; it waits
for the earlier ones of its stream. `flips` names the bits of its flits that have turned over on the way. -/
def execPacketArrival (pid : Nat) (flips : List (Nat × Nat)) (s : State) : Out :=
  .next (match s.pkt pid with
    | none => s
    | some p =>
        if (p.phase != .fly && p.phase != .spilled) || !p.head || (!p.sand && !p.whole) then s
        else if p.phase == .spilled && (s.core p.dcore).deaf then s
        else if !p.open_ && !p.passes flips then
          (s.setPkt { p with phase := .refused, head := false, arrived := 0, gone := if p.sand then p.gone ||| p.arrived else p.gone }).inject
            (p.answerOf { kind := 10, mask := 0, data := [BitVec.ofNat 8 (p.failedSeq flips)] })
        else
          let bad := p.badBlocks flips &&& p.arrived
          let p := { p with arrived := p.arrived &&& ~~~bad, gone := p.gone ||| bad }.received flips
          let s := if flips.isEmpty then s else s.setPkt p
          if !(s.before p).isEmpty then s
          else if p.open_ then (if p.settled then s.closeSand p else s)
          else match p.ref with
          | some q => s.accept_ p q
          | none => s.receive p)

/-- Send a held packet again, before what waits behind it; sand data flits are never sent again (R50). -/
def State.again (s : State) (p : Pkt) : State :=
  let s := s.setPkt { p with phase := .fly }
  ({ s with fab := { s.fab with flits := p.flits (!p.sand) ++ s.fab.flits } }).route p.src

/-- REFUSED_RECEIPT (R49): the source sends its held copy again and counts it. -/
def execRefusedReceipt (pid : Nat) (s : State) : Out :=
  .next (match s.pkt pid with
    | none => s
    | some p =>
        if p.phase != .refused || s.answering pid then s
        else ({ s with fab := { s.fab with resendN := countUp s.fab.resendN p.src 0 } }).again p)

/-- MESSAGE_RESEND (R53). (DESIGN CHOICE: log 111) -/
def execMessageResend (pid : Nat) (s : State) : Out :=
  .next (match s.pkt pid with
    | none => s
    | some p =>
        if p.phase != .held then s else s.again { p with arrived := if p.sand then p.arrived else 0 })

/-- Traffic of a job may have drained: its launches that are completing, and its close, are told. -/
def State.drainNote (s : State) (key : Nat) : State :=
  match s.jobs.find? (fun e => e.2.key == key && e.2.st != .closed) with
  | some e =>
      let j : Fin 256 := Fin.ofNat 256 e.1
      let s := (e.2.recs.filter (fun r => r.2.st == .completing)).foldl
        (fun s r => s.after (.launchCompletion j (Fin.ofNat 4096 r.1))) s
      if e.2.st == .closing then s.after (.jobCloseDrainDone j) else s
  | none => s

/-- Episodes of a launch's `ssync` may now complete: tell the cores of a key that wait in one. -/
def State.syncNote (s : State) (key : Nat) : State :=
  s.cores.foldl (fun s e => match e.2.wait, (s.ring (e.1 / 16)).thread with
    | .ssync sc _, some t =>
        if t.key = key then
          s.after (.ssyncComplete (Fin.ofNat 256 t.job) (Fin.ofNat 4096 t.record) (Fin.ofNat 16 sc)
            (if sc = 3 then e.1 / 128 else if sc = 4 then e.1 / 512 else 0))
        else s
    | _, _ => s) s

/-- The answer to what another device has asked leaves by the port that the route table gives (R61), by none where it names none; the
data of a sand get follow it (R71, R72). (DEDUCED: log 21) -/
def State.sendBack (s : State) (port : Option Nat) (id dev key : Nat) (sand : Bool) (r : Reply) : State :=
  match port with
  | none => s
  | some port =>
      if !s.memberP port key then s.dropPort port key
      else
        let tx (b : UalBody) : UalTx := { dev := dev, key := key, id := id, own := false, body := b }
        s.queueTx port (if sand && r.kind == 4 then
            tx (.answer 5 r.mask []) :: (presentBlocks r.mask r.data).map (fun e => tx (.data true e.1 e.2))
          else [tx (.answer r.kind r.mask r.data)])

/-- The first copy of a channel. -/
def State.copyAt (s : State) (core ch : Nat) : Option Copy := s.copies.find? (fun c => c.core == core && c.ch == ch)

/-- Replace the first copy of a channel. -/
def putCopy (x : Copy) : List Copy → List Copy
  | [] => []
  | c :: cs => if c.core == x.core && c.ch == x.ch then x :: cs else c :: putCopy x cs

/-- Blocks that a packet of a copy stands for: those it carries, or those it asks for. -/
def Pkt.copyBlocks (p : Pkt) : Nat := if p.kind = 1 then (p.size + 63) / 64 else p.blocks

/-- The answer to a packet of a copy reaches its hart, which goes on when no other is outstanding. -/
def State.tellHart (s : State) (p : Pkt) (core ch first : Nat) (r : Reply) : State :=
  match s.copyAt core ch with
  | none => s
  | some c =>
      if c.performed || c.flying = 0 then s
      else
        let missing := if !p.sand then []
          else ((List.range p.copyBlocks).filter (fun b => !r.mask.getLsbD b)).map (first + ·)
        let c := { c with flying := c.flying - 1, gone := c.gone ++ missing }
        let c := if r.kind = 6 then { c with deny := some (if p.kind = 1 then 5 else 6, p.addr) }
          else if p.kind = 1 then { c with got := Table.put c.got (first / 4) r.data }
          else if p.away.isSome then { c with put := true }
          else c
        let s := { s with copies := putCopy c s.copies }
        if c.flying = 0 then s.after (.copyKick (Fin.ofNat 4096 core) (Fin.ofNat 4 ch) false) else s

/-- Count an instruction of the executing core that has completed after a wait (R260). -/
def State.countMe (s : State) : State :=
  match s.myChunk with
  | some k => s.setMyRing (s.myRing.setChunk { k with count := k.count + 1 })
  | none =>
      match s.myRing.thread with
      | some t => s.setMyRing { s.myRing with thread := some { t with pos := t.pos + 1 } }
      | none => s

/-- The remote atomic of the executing core ends with its answer (R73, R427): unsupported, denied, or the old value. -/
def State.ratomEnds (s : State) (o : RatomF) (a : Nat) (r : Reply) : State :=
  if r.kind = 11 then takeTrap { code := 0x0C, val := wd a, epc := s.pc } s
  else if r.kind = 6 then faultTrap [{ cause := 9, acc := 2, va := a }] s
  else
    let v := ofBytes r.data % 2 ^ o.ty.width
    let q := s.input s.cur 0x08 (if o.ty.width = 128 then 16 else 8) [v]
    let s := if o.acq && 0 < o.sc.val then q.2.softAcquire s.cur else q.2
    ((s.setX o.d (extendTy o.ty (q.1.headD v))).adv 8).countMe

/-- The answer of another device to a remote atomic reaches the core that waits for it, whose instruction ends with it. -/
def State.tellAtomic (s : State) (p : Pkt) (r : Reply) : State :=
  match (s.core p.score).wait with
  | .remote pid o a =>
      if pid = p.pid then
        let t := (({ s with cur := p.score }).waitFor .none).ratomEnds o a r
        (({ t with cur := s.cur }).redeliver p.score).andThen (.core p.score)
      else s
  | _ => s

/-- The held copy of an answered packet is released; the port, the hart or the core it came from is told, and waits for it end
(R46, R56, R65). -/
def State.finish_ (s : State) (p : Pkt) : State :=
  let s := ((s.removePkt p.pid).route p.src).nextOfLine p
  let r := p.reply.getD { kind := 5, mask := p.full, data := [] }
  let s := match p.origin, p.hart with
    | some (_, id), _ => s.sendBack (s.portOut (p.dst / 64) p.sdev p.addr) id p.sdev p.key p.sand r
    | none, some (core, ch, first) => s.tellHart p core ch first r
    | none, none =>
        if p.kind = 7 then
          (if r.kind = 6 then s.deniedRecord p.score p.key p.pc
              { cause := 9, acc := 7, va := 0xFE * 2 ^ 56 + (p.away.getD (0, 0)).1 * 2 ^ 44 + p.dcore % 4096 * 2 ^ 32 + p.buf.val, elem := 0xFFFF }
           else s)
        else if p.leg then s
        else (if p.away.isSome then s.tellAtomic p r else s).after
          (.loadResponse (Fin.ofNat 4096 p.score) (Fin.ofNat 64 p.oreq))
  (s.drainNote p.key).syncNote p.key

/-- ACKNOWLEDGE_RECEIPT (R46): the held copy is released, and waits for it end. -/
def execAcknowledgeReceipt (pid : Nat) (s : State) : Out :=
  .next (match s.pkt pid with
    | none => s
    | some p => if p.phase != .acked || s.answering pid then s else s.finish_ p)

/-- DENIED_RECEIPT (R56): a message's record and the sticky denial; a hart, a core or another device is told. -/
def execDeniedReceipt (pid : Nat) (s : State) : Out :=
  .next (match s.pkt pid with
    | none => s
    | some p => if p.phase != .denied || s.answering pid then s else s.finish_ p)

/-- SAND_WINDOW_END (R51): of a packet, or of a get whose data come from another device (R72). -/
def execSandWindowEnd (pid : Nat) (s : State) : Out :=
  .next (match s.pkt pid with
    | none => s
    | some p =>
        if !p.sand || !p.open_ then s
        else if p.phase == .fly then s.closeSand p
        else if p.phase == .away then s.answer { p with open_ := false } .acked (p.reply.getD { kind := 4, mask := 0, data := [] })
        else s)

/-- A sand block that waits for a UALink port. -/
def UalTx.holds (t : UalTx) (pid block : Nat) : Bool :=
  t.own && t.id == pid && (match t.body with
    | .data true off _ => off == 64 * block
    | _ => false)

/-- SAND_SOURCE_TIMEOUT (R51): a data flit still at its source is discarded; so is one that waits for a halted UALink port (R36). (DEDUCED: log 97) -/
def execSandSourceTimeout (pid block : Nat) (s : State) : Out :=
  .next (match s.fab.flits.find? (fun f => f.pid == pid && f.block == block + 1 && f.cls == 5 && f.waiting) with
    | some f => ((s.takeFlit f).late f.src).loseBlock pid block
    | none =>
        match (List.range 24).find? (fun p => (s.dev.port p).queue.any (fun t => t.holds pid block)) with
        | some p =>
            let u := s.dev.port p
            { s with
              dev := s.dev.setPort p { u with queue := u.queue.filter (fun t => !t.holds pid block) }
              fab := { s.fab with dropSandP := countUp s.fab.dropSandP p 0 } }
        | none => s)

/-! ### The link (R35, R36, R71, R72) -/

/-- Sand data. -/
def sandBody : UalBody → Bool
  | .data sand _ _ => sand
  | _ => false

/-- UALINK_FLIT_TRANSMIT (R35, R36): the pending key takes over at the flit boundary; the counter never wraps. The transaction goes
to the identity that the route table gives its device (R61). (DESIGN CHOICE: log 20, 109) (DEDUCED: log 21) -/
def execUalinkFlitTransmit (p : Fin 24) (s : State) : Out :=
  let u := s.dev.port p.val
  let u := match u.txPend with
    | some k => { u with tx := some k, txPend := none, txctr := 0, halted := false, warned := false }
    | none => u
  .next (match u.tx, u.queue with
    | some _, b :: q =>
        if 2 ^ 64 - 1 ≤ u.txctr then
          if u.halted then s
          else ({ s with dev := s.dev.setPort p.val { u with halted := true } }).log
            (entry 0 0xFFF 0x0040 4 (Config.severity 0x0040) 0 [wd p.val])
        else
          let warn := 2 ^ 63 ≤ u.txctr + 1
          let v : Ulk := { u with txctr := u.txctr + 1, queue := q, warned := u.warned || warn }
          let s := ({ s with dev := s.dev.setPort p.val v }).emit
            (.ualink p.val u.txctr (fld (Table.get s.fab.drt b.dev 0).toNat 0 10) b)
          let s := if warn && !u.warned then s.log (entry 0 0xFFF 0x0041 4 (Config.severity 0x0041) 0 []) else s
          if q.isEmpty then s else s.after (.ualinkFlitTransmit p)
    | _, _ => { s with dev := s.dev.setPort p.val u })

/-- Put bytes into a payload at an offset. -/
def putBytes (bs : List Byte) (o : Nat) (d : List Byte) : List Byte :=
  (bs.take o ++ d ++ bs.drop (o + d.length)).take bs.length

/-- The blocks that bytes at an offset fill. -/
def blocksAt (o n : Nat) : BitVec 64 := if n = 0 then 0 else BitVec.ofNat 64 (2 ^ ((o + n + 63) / 64) - 2 ^ (o / 64))

/-- The packet that a head from another device becomes (R71), when the port of its node accepts its key (R54, R55); one without payload, and a sand one, sets out at once. -/
def State.takeHead (s : State) (port : Nat) (f : UalFlit) (h : UalHead) : State :=
  let n := ualNode port
  let p : Pkt :=
    { pid := 0, src := n, dst := nodeOf h.core, lane := if h.kind = 7 then h.buf.val else laneOf h.off, kind := h.kind,
      key := f.key.toNat, seq := 0, score := h.score, sdev := f.dev, dcore := h.core % 4096, buf := h.buf, mseq := h.mseq.toNat,
      tag := h.tag, payload := List.replicate (min h.len 4096) 0, sand := h.sand, sdl := max 1 (h.sdl % 65536), size := min h.size 256,
      addr := h.off, atom := h.atom, origin := some (port, f.id) }
  if h.kind != 7 && h.kind != 8 && h.kind != 1 && h.kind != 3 then s
  else if !s.memberN n p.key then
    (s.dropAt n p.key).sendBack (s.portOut (port / 6) f.dev h.off) f.id f.dev p.key false { kind := 6, mask := 0, data := [] }
  else if h.sand || p.payload.isEmpty then s.inject p
  else { s with fab := { s.fab with
    pkts := s.fab.pkts ++ [{ p with pid := s.fab.nextPid, phase := .forming }], nextPid := s.fab.nextPid + 1 } }

/-- Payload from another device: of a packet it has begun, which sets out when it is whole, or whose sand flits follow it; or of a
sand get that this device has asked for (R71, R72). Sand data that come after their packet has closed are late (R51). -/
def State.takeData (s : State) (port : Nat) (f : UalFlit) (sand : Bool) (o : Nat) (d : List Byte) : State :=
  let late (s : State) : State := if sand then s.late (ualNode port) else s
  match s.fab.pkts.find? (fun p => p.origin == some (port, f.id) && p.sdev == f.dev) with
  | some p =>
      let p := { p with payload := putBytes p.payload o d }
      if p.phase = .forming then
        let p := { p with arrived := p.arrived ||| blocksAt o d.length }
        if p.whole then (s.removePkt p.pid).inject { p with arrived := 0 } else s.setPkt p
      else if !p.pending then late s
      else
        let bs := (List.range p.blocks).filter (fun b => (blocksAt o d.length).getLsbD b)
        (s.setPkt { p with came := p.came ||| (blocksAt o d.length &&& p.full) }).putFlits p.src (bs.map (fun b => p.flit (b + 1)))
  | none =>
      match s.pkt f.id with
      | some p =>
          if p.phase = .away && p.away == some (f.dev, port) && p.kind = 1 && p.sand then
            let r := p.reply.getD { kind := 4, mask := 0, data := List.replicate p.size 0 }
            let r := { r with mask := r.mask ||| blocksAt o d.length, data := putBytes r.data o d }
            if p.open_ && r.mask == blocksAt 0 p.size then s.answer { p with open_ := false } .acked r
            else s.setPkt { p with reply := some r }
          else late s
      | none => late s

/-- The answer of another device (R71): the packet that asked is answered; the head of a sand get's answer opens its window. -/
def State.takeAnswer (s : State) (port : Nat) (f : UalFlit) (r : Reply) : State :=
  match s.pkt f.id with
  | none => s
  | some p =>
      if p.phase != .away || p.away != some (f.dev, port) then s
      else if r.kind = 6 then s.denyPkt p
      else if p.kind = 1 && p.sand && r.kind = 5 then s.setPkt { p with open_ := true }
      else s.answer p .acked r

/-- UALINK_FLIT_RECEIVE (R35, R55, R72): a flit that no key receives, or whose authentication or counter fails, is as one that fails
the link CRC: a sand one is dropped and counted, any other is sent again by the link. A key that is no member is dropped and
denied. (DESIGN CHOICE: log 20) -/
def execUalinkFlitReceive (p : Fin 24) (f : UalFlit) (s : State) : Out :=
  let u := s.dev.port p.val
  let u : Ulk := if u.rxPend.isSome && f.ctr == 0 then { u with rx := u.rxPend, rxPend := none, rxlast := none } else u
  let next := match u.rxlast with
    | some n => n + 1
    | none => 0
  .next (
    if u.rx.isNone || !f.ok || f.ctr != next then
      if sandBody f.body then { s with fab := { s.fab with dropSandP := countUp s.fab.dropSandP p.val 0 } } else s
    else
      let s := { s with dev := s.dev.setPort p.val { u with rxlast := some f.ctr } }
      let key := f.key.toNat
      if !s.memberP p.val key then
        let s := s.dropPort p.val key
        match f.body with
        | .head h => s.sendBack (s.portOut (p.val / 6) f.dev h.off) f.id f.dev key false { kind := 6, mask := 0, data := [] }
        | _ => s
      else match f.body with
      | .head h => s.takeHead p.val f h
      | .data sand o d => s.takeData p.val f sand o d
      | .answer k m d => s.takeAnswer p.val f { kind := k, mask := m, data := d })

end Sys2Proof.Machine
end

