-- ==== Sys2Proof/Machine/Module.lean ====
section
/-! DEFINITION. The module's own steps: resets and boot (R27, R28), the governor (R22), the power controller (R25), the
tamper alarm (R31, R32), link training (R38, R76), management and debug (R39, R40), retention sleep (R161), IDE (R75). -/

namespace Sys2Proof.Machine

open Sys2Proof

/-! ### Keys, jobs and their end -/

/-- Fresh key material: a name of its own for each key generated. (DESIGN CHOICE: log 12) -/
def State.freshKey (s : State) : State × Nat := (s.drew, 2 * s.free)

/-- Put material in a key slot. -/
def State.putKey (s : State) (slot mat : Nat) : State := { s with dev := { s.dev with keys := Table.put s.dev.keys slot mat } }

/-- Empty the UALink link keys. -/
def Dev.emptyLinkKeys (d : Dev) : Dev :=
  { d with ulk := d.ulk.map (fun u => { u with tx := none, txPend := none, rx := none, rxPend := none }) }

/-- The records of a job that have a launch which has not yet completed: any that is not idle (R108). -/
def Job.active (k : Job) : List Nat := (k.recs.filter (fun e => e.2.st != .idle)).map (·.1)

/-- End every launch of a job with a status, and forget its held edges (R108). -/
def State.endJob (s : State) (j status : Nat) : State :=
  let s := (s.job j).active.foldl (fun s i => s.endLaunch j i status) s
  let k := s.job j
  s.setJob j { k with recs := k.recs.map (fun e => (e.1, { e.2 with held := 0 })) }

/-- The jobs that are not closed. -/
def State.liveJobs (s : State) : List Nat := (s.jobs.filter (fun e => e.2.st != .closed)).map (·.1)

/-- The open jobs. -/
def State.openJobs (s : State) : List Nat := (s.jobs.filter (fun e => e.2.st == .open_)).map (·.1)

/-- No copy and no packet of a key is in flight; one that no answer will reach is not. -/
def State.drained (s : State) (key : Nat) : Bool :=
  s.copies.all (fun c => c.key != key) && s.fab.pkts.all (fun p => p.key != key || p.phase == .lost)

/-- Begin to close a job (R89 steps 1 and 2). (DEDUCED: log 92) (DESIGN CHOICE: log 113) -/
def State.beginClose (s : State) (j status : Nat) : State :=
  let s := s.endJob j status
  let k := s.job j
  (s.setJob j { k with st := .closing, bells := [] }).after (.jobCloseDrainDone (Fin.ofNat 256 j))

/-- Discard a key's traffic in flight (R32). -/
def State.discard (s : State) (key : Nat) : State :=
  { s with
    copies := s.copies.filter (fun c => c.key != key),
    prefs := s.prefs.filter (fun c => c.key != key)
    fab := { s.fab with
      pkts := s.fab.pkts.filter (fun p => p.key != key), flits := s.fab.flits.filter (fun f => f.key != key) }
    dev := { s.dev with ulk := s.dev.ulk.map (fun u => { u with queue := u.queue.filter (fun t => t.key != key) }) } }

/-- End every launch of every open job with status 3 and begin to close the job (R32, R40). -/
def State.closeJobs (s : State) : State := s.openJobs.foldl (fun s j => s.beginClose j 3) s

/-- Close every job, discarding its traffic in flight; a job that is closing already has its traffic discarded too (R32). -/
def State.closeAll (s : State) : State :=
  let js := s.liveJobs
  js.foldl (fun s j => (s.discard (s.job j).key).after (.jobCloseDrainDone (Fin.ofNat 256 j))) s.closeJobs

/-! ### Resets and boot -/

/-- A lane cluster has fewer than four working lanes (R245). -/
def tooFewLanes (lret : BitVec 64) : Bool :=
  (List.range 4).any (fun c => 12 < (bitsSet (lret.extractLsb' (16 * c) 16)).length)

/-- Retire the lanes that fail the power-on self-test (R247). -/
def State.selfTest (s : State) (l : List (Nat × BitVec 64)) : State :=
  l.foldl (fun s e =>
    let c := s.core e.1
    let w := tooFewLanes e.2
    let s := s.setCore e.1 { c with lret := e.2, lanes := 64 - (bitsSet e.2).length, withdrawn := w }
    if w then s.setRing (e.1 / 16) { s.ring (e.1 / 16) with withdrawn := true } else s) s

/-- Set the trip flag. -/
def State.setDevTrip (s : State) (t : Bool) : State := { s with dev := { s.dev with trip := t } }

/-- The step at which a boot from step `first` stops, with its cause: an earlier step is not run (R27), and there are
five. -/
def bootStop (b : BootReport) (first : Nat) : Option (Nat × Nat) := b.failed.map (fun e => (min 5 (max first e.1), e.2))

/-- The measurements after a boot from step `first` (R28, R90): the images verified now, those of earlier steps as they
stood, fixed when step 5 ends. -/
def Dev.measure (d : Dev) (first : Nat) : List Nat :=
  (List.range 4).map (fun i => if i + 1 < first then d.meas.getD i 0 else Table.get d.staged i 0)

/-- Report a boot that stopped on the management bus (R28). -/
def State.reportBoot (s : State) : State :=
  match s.dev.bootFail with
  | some (step, cause) => s.emit (.bootStopped step cause)
  | none => s

/-- The boot chain (R28) from step `first`, and what it does about an earlier trip (R25). -/
def State.boot (s : State) (first : Nat) (b : BootReport) : State :=
  let stop := bootStop b first
  let reached := match stop with
    | some (step, _) => step - 1
    | none => 5
  let s := { s with dev := { s.dev with
    bstep := reached, bootFail := stop, meas := if reached = 5 then s.dev.measure first else s.dev.meas } }.reportBoot
  let s := if first = 1 && 1 ≤ reached then s.freshKey.1.putKey 0 s.freshKey.2 else s
  if s.dev.trip && 2 ≤ reached then
    (s.log (entry 0 0xFFF 0x0060 6 4 0 [])).setDevTrip false
  else s

/-- A byte of memory outside the module: the host's, or a Type 3 device's (R166). -/
def outside (a : Nat) : Bool := rangeOf a == .cxl

/-- What survives every reset and power-off: memory outside the module, the management firmware's configuration and staged images, the
halt that asks for attestation, and the model's own fields. (DESIGN CHOICE: log 120) -/
def State.blank (s : State) : State :=
  { State.reset with
    turns := s.turns, free := s.free, outs := s.outs
    mem := s.mem.filter (fun c => outside c.1), lineKeys := s.lineKeys.filter (fun e => outside (128 * e.1))
    poison := s.poison.filter (fun e => outside (128 * e.1))
    dev := { State.reset.dev with
      bifur := s.dev.bifurNext, bifurNext := s.dev.bifurNext, staged := s.dev.staged } }

/-- COLD_RESET (R27): a module halted by an alarm needs a power cycle first (R32). A second cold reset before attestation
clears att_req with all other state. (DESIGN CHOICE: log 106) -/
def coldReset (b : BootReport) (s : State) : State :=
  if s.dev.halted && s.dev.powered then s
  else
    let k := s.blank
    let k := { k with dev := { k.dev with trip := s.dev.trip, attReq := s.dev.halted } }
    (k.boot 1 b).selfTest b.selfTest

/-- POWER_OFF (R25, R32). (DESIGN CHOICE: log 106) -/
def powerOff (s : State) : State :=
  let k := s.blank
  { k with dev := { k.dev with powered := false, clocksOn := false, halted := s.dev.halted } }

/-- What a core keeps over a warm reset (R247). -/
def Core.kept (c : Core) : Core :=
  { ({} : Core) with lret := c.lret, lanes := c.working, withdrawn := c.withdrawn, scalarFails := c.scalarFails }

/-- A UALink port over a warm reset (R27, R36, R37): keys and counters stay, what waits to be sent is lost with the
networks. -/
def Ulk.kept (u : Ulk) : Ulk :=
  { tx := u.tx, txPend := u.txPend, rx := u.rx, rxPend := u.rxPend, txctr := u.txctr, rxlast := u.rxlast,
    warned := 2 ^ 63 ≤ u.txctr }

/-- MODULE_WARM_RESET (R27): cores, networks, caches, scratchpads and scheduler return to reset; memory, keys and fields
marked kept stay. Every committed store is in memory. (DESIGN CHOICE: log 88, 107, 108, 129) -/
def moduleWarmReset (b : BootReport) (s : State) : State :=
  if !s.dev.clocksOn then s
  else
    let d := s.dev
    let s := s.backs.foldl (fun s b => s.commitNow b.key b.ln b.mask b.full b.data b.rel) s
    let k := s.blank
    let k : State := { k with
      cycle := s.cycle, cores := s.cores.map (fun (e : Nat × Core) => (e.1, e.2.kept)),
      rings := (s.rings.filter (fun (e : Nat × Ring) => e.2.withdrawn)).map
        (fun (e : Nat × Ring) => (e.1, { ({} : Ring) with withdrawn := true })),
      mem := s.mem.filter (fun c => c.1 < 2 ^ 52), ovfBufs := s.ovfBufs, lineKeys := s.lineKeys.filter (fun e => e.1 < 2 ^ 45),
      poison := s.poison.filter (fun e => e.1 < 2 ^ 45), fwRoot := s.fwRoot,
      fab := { k.fab with
        devid := s.fab.devid, devidAct := s.fab.devid, ord := s.fab.ord, ordAct := s.fab.ord },
      dev := { k.dev with
        trip := d.trip, keys := d.keys, ulk := d.ulk.map Ulk.kept, meas := d.meas, bifur := d.bifur, links := d.links, ide := d.ide,
        almLock := d.almLock, almEn := if d.almLock then d.almEn else 0x1F#5,
        almPol := if d.almLock then d.almPol else 0, almCount := d.almCount, almSeen := d.almSeen, dbg := d.dbg,
        attReq := d.attReq, msixTab := d.msixTab, tapIr := d.tapIr, tapDr := d.tapDr, alert := d.alert } }
    k.boot 2 b

/-! ### Governor, power, alarm -/

/-- The point the governor chooses, and its quiet count (R22). (DESIGN CHOICE: log 126) -/
def Domain.choose (m : Domain) (cap depth : Nat) : Nat × Nat :=
  let c := m.ctl.toNat
  let ptMax := fld c 24 3
  let ptMin := fld c 20 3
  let lo := min ptMin ptMax
  let hi := min ptMax cap
  let clampTo (t : Nat) : Nat := max (min t hi) lo
  if natBit c 31 then (min (fld c 16 3) cap, m.quiet)
  else if fld c 8 8 ≤ depth then (clampTo (min (m.cur + 1) hi), 0)
  else if depth ≤ fld c 0 8 then
    (if 8 ≤ m.quiet + 1 then (clampTo (max (m.cur - 1) lo), 0) else (clampTo m.cur, m.quiet + 1))
  else (clampTo m.cur, 0)

/-- GOVERNOR_SAMPLE: no sample is taken during a move. -/
def governorSample (n : Nat) (depth : Nat) (s : State) : State :=
  let m := s.dev.domain n
  if m.target.isSome || s.dev.bstep < 2 then s
  else
    let r := m.choose s.dev.power.cap depth
    let m : Domain := { m with quiet := r.2, target := if r.1 = m.cur then none else some r.1 }
    { s with dev := s.dev.setDomain n m }

/-- GOVERNOR_MOVE_DONE (R22, R23). -/
def governorMoveDone (n : Nat) (s : State) : State :=
  let m := s.dev.domain n
  match m.target with
  | none => s
  | some t => { s with dev := s.dev.setDomain n { m with cur := t, target := none, moves := (m.moves + 1) % 2 ^ 32 } }

/-- The throttle level, its quiet count and the cap after a measurement (R25). -/
def Power.measure (p : Power) (m : PowerSample) : Power :=
  let pkg := m.pkgW.toNat
  let mw := m.modW.toNat
  let above := 4600 < pkg || 4800 < mw || (105 : Int) ≤ m.temp
  let calm := pkg ≤ 4370 && mw ≤ 4560 && m.temp < (100 : Int)
  let tq : Nat × Nat :=
    if above then (min (p.thr + 1) 15, 0)
    else if calm then (if 10 ≤ p.quiet + 1 then (p.thr - 1, 0) else (p.thr, p.quiet + 1))
    else (p.thr, 0)
  { thr := tq.1, quiet := tq.2, cap := (if 8 ≤ tq.1 then 5 else 7), modW := mw, pkgW := pkg,
    hot := decide ((105 : Int) ≤ m.temp), modLim := decide (4800 < mw), pkgLim := decide (4600 < pkg),
    temp := m.temp }

/-- POWER_MEASUREMENT: at 115 °C the trip follows. -/
def powerMeasurement (m : PowerSample) (s : State) : State :=
  if s.dev.bstep < 2 then s
  else
    let s := { s with dev := { s.dev with power := s.dev.power.measure m } }
    if (115 : Int) ≤ m.temp then s.after .thermalTrip else s

/-- THERMAL_TRIP (R25). -/
def thermalTrip (s : State) : State :=
  { s with dev := { s.dev with clocksOn := false, alert := true, trip := true } }

/-- Rewrite every line kept under old material from the verified images (R32). -/
def State.rebuild (s : State) (old new : Nat) : State :=
  (s.lineKeys.filter (fun e => e.2 == old)).foldl (fun s e =>
    { s with
      mem := Memory.writeN s.mem (128 * e.1) 128
        (ofBytes ((List.range 128).map (fun i => Config.image (128 * e.1 + i))))
      lineKeys := Table.put s.lineKeys e.1 new }) s

/-- Empty every key slot and link key; a key install in progress is lost (R32, R87 res 8). -/
def State.eraseKeys (s : State) : State :=
  let d := s.dev
  let s := { s with dev := { d.emptyLinkKeys with keys := [] } }
  if d.mbxBusy && d.mbxCmd == 3 then
    (match d.mbxPost with
     | none => s.post 8 []
     | some (0, _) => { s with dev := { s.dev with mbxPost := some (8, []) } }
     | some _ => s)
  else s

/-- TAMPER_ALARM (R31–R33). -/
def tamperAlarm (sensor : Nat) (s : State) : State :=
  let d := s.dev
  if !d.almEn.getLsbD sensor || !d.powered then s
  else
    let s := { s with dev := { d with
      almCount := min (d.almCount + 1) 4294967295, almSeen := setBit d.almSeen sensor true, alert := true } }
    let s := s.log (entry 0 0xFFF 0x0050 5 (Config.severity 0x0050) 0 [wd s.dev.almSeen.toNat])
    match d.almPol with
    | 1 =>
        let old := s.mat0
        let s := s.eraseKeys
        let new := s.freshKey.2
        let s := (s.freshKey.1.putKey 0 new)
        (s.closeAll).rebuild old new
    | 2 =>
        let s := s.eraseKeys
        { s with dev := { s.dev with clocksOn := false, halted := true } }
    | _ => s

/-- ALM_CFG_WRITE (R31). -/
def almCfgWrite (w : Word) (s : State) : State := { s with dev := s.dev.setAlm w }

/-! ### Links, management, debug -/

/-- CXL_LINK_TRAIN (R38, R76), once the boot has opened the host interface (R28): the odd link of a port exists only when
the port is bifurcated. (DEDUCED: log 79) (DESIGN CHOICE: log 112) -/
def cxlLinkTrain (l : Nat) (k : TrainKind) (s : State) : State :=
  if s.dev.bstep != 5 || (l % 2 == 1 && !s.dev.bifur.getLsbD (l / 2)) then s
  else
    let s := { s with dev := { s.dev with links := s.dev.links.setIfInBounds l (some k) } }
    if k = .plainPcie then s.log (entry 0 0xFFF 0x0010 7 (Config.severity 0x0010) 0 []) else s

/-- CXL_LINK_LOSS (R90). -/
def cxlLinkLoss (l : Nat) (s : State) : State :=
  { s with dev := { s.dev with
    links := s.dev.links.setIfInBounds l none, spdm := s.dev.spdm.setIfInBounds l {},
    ide := s.dev.ide.setIfInBounds l 0 } }

/-- Load an instruction of the test access port and shift out its data register (R40). -/
def State.tap (s : State) (ir : Nat) (dr : BitVec 64) : State :=
  { s with dev := { s.dev with tapIr := ir, tapDr := dr } }.emit (.tap dr)

/-- IDCODE (R40). -/
def idcode : BitVec 64 :=
  BitVec.ofNat 64 (Config.revision % 16 * 2 ^ 28 + 0xC808 * 2 ^ 12 + Config.manufacturer.toNat * 2 + 1)

/-- TAP_IDCODE. (DESIGN CHOICE: log 16) -/
def tapIdcode (s : State) : State := s.tap 0 idcode

/-- TAP_BYPASS: the one-bit bypass register captures 0. -/
def tapBypass (s : State) : State := s.tap 1 0

/-- TAP_SAMPLE_PRELOAD: the boundary register captures the pins. -/
def tapSamplePreload (s : State) : State := s.drew.tap 2 (Config.pins s.free)

/-- TAP_EXTEST: the boundary register drives the pins. -/
def tapExtest (s : State) : State := s.tap 3 s.dev.tapDr

/-- Once every job has closed, the keys but key 0 are emptied and invasive debug is enabled (R40). -/
def State.finishDebug (s : State) : State :=
  if s.dev.dbgPend && s.liveJobs.isEmpty then
    { s with dev := { s.dev.emptyLinkKeys with
      keys := s.dev.keys.filter (fun e => e.1 == 0), dbg := true, dbgPend := false } }
  else s

/-- INVASIVE_DEBUG_ENABLE (R40): the jobs close as by JOB_CLOSE, their traffic draining, before it takes effect. -/
def invasiveDebugEnable (ok : Bool) (s : State) : State :=
  if !ok || s.dev.dbg then s
  else
    let s := s.closeJobs
    { s with dev := { s.dev with dbgPend := true } }.finishDebug

/-- PLDM_MONITOR (R39): power, temperature, alarm status and the trip flag. (DESIGN CHOICE: log 128) -/
def pldmMonitor (s : State) : State :=
  let d := s.dev
  s.emit (.pldm [d.power.pkgW, d.power.modW, d.power.temp, d.almSeen.toNat, bitN d.alert, bitN d.trip, bitN d.halted])

/-- PLDM_FW_UPDATE (R38, R39): an image staged for the next boot, or the bifurcation from the next cold reset. -/
def pldmFwUpdate (item : PldmItem) (v : Nat) (s : State) : State :=
  match item with
  | .image stage => { s with dev := { s.dev with staged := Table.put s.dev.staged stage.val v } }
  | .bifurcation => { s with dev := { s.dev with bifurNext := BitVec.ofNat 4 v } }

/-- CORE_RETENTION_SLEEP (R161): a core that holds no chunk, no region version and no S line, and whose ring's thread does
not execute on it. -/
def coreRetentionSleep (c : Nat) (s : State) : State :=
  let k := s.core c
  let r := s.ring (c / 16)
  if (r.chunkAt (slotOf c)).isSome || (r.thread.isSome && r.head == slotOf c) || k.l1.any (fun e => e.2.st != .n) then s
  else s.setCore c { k with asleep := true }

/-- IDE_KM_REQUEST (R75): set a stream's key, or switch to the key set. -/
def ideKmRequest (l stream : Nat) (switch : Bool) (s : State) : State :=
  if !s.dev.hostOpen l then s
  else
    let b := s.dev.ide.toList.getD l 0
    let b := if switch then (if b.getLsbD stream then setBit (setBit b stream false) (2 + stream) true else b)
      else setBit b stream true
    { s with dev := { s.dev with ide := s.dev.ide.setIfInBounds l b } }.emit (.ideKm l stream)

end Sys2Proof.Machine
end

