-- ==== Sys2Proof/Machine/Speculation.lean ====
section
/-! DEFINITION. Speculation and recovery regions: `fork`, `chk`, `join`, `nospec`, `ind` (R130–R140, R413–R418), the
commit of a chunk and its exit from a loop (R144, R153–R156), the forwarding path (R139, R145, R146), and `rgn.begin`,
`rgn.keep`, `rgn.end` (R253–R258, R419–R421). -/

namespace Sys2Proof.Machine

open Sys2Proof

/-! ### Chunks and their loop -/

/-- First iteration of chunk `j` (R132). -/
def Forked.first (g : Forked) (j : Nat) : Nat := j * g.k

/-- Iterations of chunk `j` (R132). -/
def Forked.iters (g : Forked) (j : Nat) : Nat := min g.k (g.n - g.first j)

/-- The forked level as chunk `j` enters it (R134). -/
def Forked.level (g : Forked) (j : Nat) : Level :=
  { f := g.f, e := g.e, n := g.n, k := g.k, iter := g.first j, forked := true, seed := g.seed }

/-- The slot of chunk `j` (R135). -/
def Forked.slot (g : Forked) (j : Nat) : Fin 16 := Fin.ofNat 16 (g.h.val + j % g.w)


/-- Start chunk `j` on its slot with live-ins (R135, R137). Live-outs that have been sent for it reach it next. (DEDUCED: log 48) -/
def State.startChunk (s : State) (r : Nat) (g : Forked) (j : Nat) (l : Live) (old : Core) : State :=
  let c := coreAt r (g.slot j)
  let s := s.setCore c (((s.core c).adopt old).begin_ l (g.level j :: g.under) (pastFork g.f))
  let ring := s.ring r
  let k : Chunk := { idx := j, num := g.c0 + BitVec.ofNat 32 j, slot := g.slot j, kept := l, actual := false }
  let s := s.setRing r { ring with chunks := ring.chunks ++ [k] }
  (ring.liveOuts.filter (fun o => o.1 + 1 == j)).foldl (fun s _ => s.after (.liveOutArrival (Fin.ofNat 256 r))) s

/-- Send the live-outs of the chunk in a slot to the chunk after it (R139). -/
def State.sendLiveOuts (s : State) (r : Nat) (g : Forked) (k : Chunk) : State :=
  if k.idx + 1 < g.m then
    let ring := s.ring r
    (s.setRing r { ring with liveOuts := ring.liveOuts ++ [(k.idx, (s.core (coreAt r k.slot)).live)] }).after
      (.liveOutArrival (Fin.ofNat 256 r))
  else s

/-- The chunks that a pre-emption discarded start afresh behind the oldest, which sends its live-outs again when it has
finished (R160). They are predicted from its kept live-ins: the live-outs of the chunk before it, or the `fork` snapshot (R138). (DEDUCED: log 49) -/
def State.refork (s : State) (r : Nat) : State :=
  let ring := s.ring r
  match ring.forked, ring.chunks with
  | some g, [k] =>
      let old := s.core (coreAt r k.slot)
      let s := if k.finished && !ring.liveOuts.any (fun o => o.1 == k.idx) then s.sendLiveOuts r g k else s
      ((List.range (g.w - 1)).filter (fun i => k.idx + i + 1 < g.m)).foldl
        (fun s i =>
          let j := k.idx + i + 1
          s.startChunk r g j ((s.ring r).predict g k.kept (j - (k.idx - 1)) j) old) s
  | _, _ => s

/-! ### Commit (R143, R153) -/

/-- Soft copies of a line on the other cores of a ring are dropped: the thread must find what it wrote (R162, R205). (DEDUCED: log 57) -/
def State.dropSoftCopies (s : State) (c ln : Nat) : State :=
  ((List.range 16).map (fun i => 16 * (c / 16) + i)).foldl (fun s o =>
    match s.line o ln with
    | some l => if o != c && l.soft && l.st == .n then (s.softBack o ln).eraseLine o ln else s
    | none => s) s

/-- A chunk's version of a line becomes ordinary. -/
def State.commitLine (s : State) (c ln : Nat) (l : Line) : State :=
  match l.st with
  | .s _ =>
      if l.soft then
        let s := (s.commitVersion ln l).eraseLine c ln
        if l.sdirty = 0 then s else s.dropSoftCopies c ln
      else if l.sw = 0 then
        (if l.coh == .inv then s.eraseLine c ln
         else s.putLine c ln { l with st := .n, er := 0, sdirty := 0, full := 0, bad := 0, present := 0, rel := none })
      else
        let s := (s.obtain c ln true).commitVersion ln l
        s.putLine c ln { l with
          st := .n, coh := .own, sw := 0, er := 0, sdirty := 0, full := 0, bad := 0, present := 0, dirty := true, rel := none }
  | _ => s

/-- A chunk may commit: no request outstanding but discarded ones, its broadcasts have passed, its live-outs arrived. (DEDUCED: log 50) -/
def State.mayCommit (s : State) (r : Nat) (k : Chunk) : Bool :=
  let g := s.ring r
  (s.core (coreAt r k.slot)).oreqs.all (·.2) && g.bcasts.all (fun b => Fin.ofNat 16 b.from_ != k.slot) &&
    !(g.liveOuts.any (fun o => o.1 == k.idx) && g.chunks.any (fun x => x.idx == k.idx + 1))

/-- It may, and the host has let go of what its contributions write (R79, R82); the answer asks the host. -/
def State.readyToCommit (s : State) (r : Nat) (k : Chunk) : Bool × State :=
  if !s.mayCommit r k then (false, s)
  else
    let a := s.contribNeed (coreAt r k.slot)
    (a.1.isNone, a.2)

/-- The youngest chunk older than index `j` whose live-outs have arrived, and these (R138): a live chunk that has received those of the one
before it, else the chunk `i` that commits with live-outs `l`. -/
def Ring.known (g : Ring) (i j : Nat) (l : Live) : Nat × Live :=
  (g.chunks.filter (fun x => x.arrived && x.idx < j + 1)).foldl
    (fun b x => if b.1 < x.idx - 1 then (x.idx - 1, x.kept) else b) (i, l)

/-- The committed values of a chunk: its lines, store buffer, contributions, flags, strides, and the chunk counter
(R130, R138, R153). `extra` counts the instruction it waits at. (DEDUCED: log 48) -/
def State.commitChunk (s : State) (r : Nat) (g : Forked) (k : Chunk) (extra : Nat) : State :=
  let c := coreAt r k.slot
  let s := (s.core c).l1.foldl (fun s e => s.commitLine c e.1 e.2) s
  let s := (s.core c).sbuf.foldl (fun s _ => s.drainOne c) s
  let s := s.flushContribs c
  let h := s.core c
  let s := s.setCore c { h with rfilter := [], fflags := 0 }
  let ring := s.ring r
  let stride : Vector Word 64 := Vector.ofFn (fun i => h.x.get i - k.kept.x.get i)
  let ring := { ring.learn g.f stride with
    tflags := ring.tflags ||| h.fflags, chunkCtr := k.num + 1, ns := ring.ns || k.ns,
    thread := ring.thread.map (fun t => { t with pos := t.pos + k.count + extra }),
    chunks := ring.chunks.filter (fun x => x.slot != k.slot),
    liveOuts := ring.liveOuts.filter (fun o => o.1 != k.idx) }
  (s.setRing r ring).tlbiNote

/-- Forked execution ends: the thread goes on alone on a core, with its flags (R136, R144). -/
def State.endForked (s : State) (r : Nat) (slot : Fin 16) (levels : List Level) (pc : Word) : State :=
  let c := coreAt r slot
  let ring := s.ring r
  let s := s.setRing r { ring with forked := none, chunks := [], head := slot, bcasts := [], liveOuts := [] }
  s.setCore c { s.core c with fflags := ring.tflags, levels := levels, pc := pc, wait := .none }

/-- The oldest chunk, finished, commits (R136, R153). The next one is restarted when the thread's enabled flag traps have changed since it
started (R162). (DEDUCED: log 50, 123) -/
def State.commitFinished (s : State) (r : Nat) (g : Forked) (k : Chunk) : State :=
  let c := coreAt r k.slot
  let l := (s.core c).live
  let s := s.commitChunk r g k 1
  if k.idx + 1 = g.m then s.endForked r k.slot g.under (pastChk g.e)
  else
    let ring := s.ring r
    let h := Fin.ofNat 16 (k.slot.val + 1)
    let next := match ring.chunks with
      | x :: _ => x.slot
      | [] => h
    let s := s.setRing r { ring with head := next }
    let old := s.core c
    let s := if (s.core (coreAt r next)).tren = old.tren then s else s.squash r next
    let s := s.setCore (coreAt r next) ((s.core (coreAt r next)).adopt old)
    let j := k.idx + g.w
    let s :=
      if j < g.m then
        let m := (s.ring r).known k.idx j l
        s.startChunk r g j ((s.ring r).predict g m.2 (j - m.1) j) old
      else s.setCore c { s.core c with wait := .ended, levels := [], strip := {} }
    s.nudge r

/-- CHUNK_COMMIT (R153): the core's chunk is the oldest, finished, and ready. -/
def execChunkCommit (core : Fin 4096) (s : State) : Out :=
  let r := core.val / 16
  let ring := s.ring r
  .next (match ring.forked, ring.chunks with
    | some g, k :: _ =>
        let c := s.core core.val
        if k.slot == slotOf core.val && k.finished && !k.restart && !c.handler && c.stopping.isNone then
          let a := s.readyToCommit r k
          if a.1 then a.2.commitFinished r g k else a.2
        else s
    | _, _ => s)

/-! ### The instructions of R413 -/

/-- A `fork` that runs unforked (R133). -/
def forkAlone (l : Level) (s : State) : State :=
  if l.n = 0 then s.setPc (pastChk l.e)
  else s.setMe { s.me with levels := l :: s.me.levels, pc := pastFork l.f }

/-- Write back and drop the soft lines of every core of a ring, which one thread uses (R162, R205). (DEDUCED: log 57) -/
def State.softRing (s : State) (r : Nat) : State :=
  ((List.range 16).map (fun i => 16 * r + i)).foldl (fun s c => s.softInval c) s

/-- A `fork` that runs forked (R135–R138). -/
def forkRing (g : Forked) (s : State) : State :=
  let r := s.cur / 16
  let s := s.softRing r
  let c := s.me
  let ring := s.myRing
  let k0 : Chunk := { idx := 0, num := g.c0, slot := g.h, kept := g.snap, actual := true }
  let s := s.setMyRing
    { ring with forked := some g, chunks := [k0], tflags := c.fflags, nsq := 0, nov := 0, bcasts := [], liveOuts := [],
                head := g.h }
  let s := s.setMe { c with fflags := 0, levels := g.level 0 :: g.under, pc := pastFork g.f }
  (List.range (g.w - 1)).foldl (fun s i => s.startChunk r g (i + 1) ((s.ring r).predict g g.snap (i + 1) (i + 1)) c) s

/-- `fork` (R132–R138, R413, R414). -/
def execFork (o : ForkF) (s : State) : Out :=
  let imm := o.imm.toNat
  let k := fld imm 20 12
  let lat := fld imm 0 16
  .next (threadOnly s (fun s => operandOk (k != 0 && lat != 0) s (fun s =>
    if 4 ≤ s.me.levels.length then trapAt 0x0E 0 0 s
    else
      let n := (s.x o.a).toNat
      let inds := s.me.inds
      let s := s.setMe { s.me with strip := {}, inds := [] }
      let ring := s.myRing
      let m := (n + k - 1) / k
      let w := min (fld imm 16 4 + 1) (min m 16)
      let f := s.pc
      let e := f + wd (4 * lat)
      if ring.forked.isSome || s.me.depth != 0 || ring.ns || w ≤ 1 then
        forkAlone { f := f, e := e, n := n, k := k, iter := 0, forked := false, seed := s.me.srseed } s
      else
        forkRing { f := f, e := e, n := n, k := k, w := w, c0 := ring.chunkCtr, h := slotOf s.cur, m := m,
                   snap := s.me.live, inds := inds, under := s.me.levels, seed := s.me.srseed } s)))

/-- The `chk` that ends an iteration of a forked level (R136). -/
def chkForked (g : Forked) (k : Chunk) (l : Level) (ls : List Level) (s : State) : State :=
  let r := s.cur / 16
  if k.done + 1 < g.iters k.idx then
    let s := s.setMe { s.me with levels := { l with iter := l.iter + 1 } :: ls, pc := pastFork l.f }
    s.setMyRing (s.myRing.setChunk { k with done := k.done + 1 })
  else
    let k := { k with finished := true }
    let s := (s.setMyRing (s.myRing.setChunk k)).waitFor .commit
    let s := s.sendLiveOuts r g k
    if s.myRing.isOldest k.slot then s.after (.chunkCommit (Fin.ofNat 4096 s.cur)) else s

/-- `chk` (R133, R136, R415). -/
def execChk (s : State) : Out :=
  .next (threadOnly s (fun s =>
    match s.me.levels with
    | [] => s.adv 8
    | l :: ls =>
        if l.e ≠ s.pc then operandTrap s
        else
          let s := s.setMe { s.me with strip := {} }
          match l.forked, s.myRing.forked, s.myChunk with
          | true, some g, some k => chkForked g k l ls s
          | _, _, _ =>
              if l.iter + 1 < l.n then
                s.setMe { s.me with levels := { l with iter := l.iter + 1 } :: ls, pc := pastFork l.f }
              else s.setMe { s.me with levels := ls, pc := pastChk l.e }))

/-- `join` (R416). -/
def execJoin (s : State) : Out :=
  .next (threadOnly s (fun s => commitPoint s (fun s => (s.setMe { s.me with inds := [] }).adv 8)))

/-- `nospec` (R417): a speculative chunk holds the write until it commits. -/
def execNospec (s : State) : Out :=
  .next (threadOnly s (fun s =>
    (match s.speculative, s.myChunk with
     | true, some k => s.setMyRing (s.myRing.setChunk { k with ns := true })
     | _, _ => s.setMyRing { s.myRing with ns := true }).adv 8))

/-- Declare an induction register: a second declaration replaces its stride, a ninth is ignored (R138). -/
def declare (l : List (Reg × Word)) (d : Reg) (stride : Word) : List (Reg × Word) :=
  if l.any (fun e => e.1 == d) then l.map (fun e => if e.1 == d then (d, stride) else e)
  else if l.length < 8 then l ++ [(d, stride)] else l

/-- `ind` (R418). -/
def execInd (o : RegImm) (s : State) : Out :=
  .next (threadOnly s (fun s => operandOk (o.d.val != 0) s (fun s =>
    (s.setMe { s.me with inds := declare s.me.inds o.d (sext32 o.imm) }).adv 12)))

/-! ### The forwarding path -/

/-- What a chunk has exposed agrees with live-outs (R139). -/
def Chunk.agrees (k : Chunk) (l : Live) : Bool :=
  (List.finRange 64).all (fun i => !k.exX.getLsbD i.val || k.kept.x.get i == l.x.get i) &&
    (List.finRange 16).all (fun i => !k.exP.getLsbD i.val || k.kept.p.get i == l.p.get i) &&
    (!k.exS.getLsbD 0 || k.kept.vl == l.vl) && (!k.exS.getLsbD 1 || k.kept.vtype == l.vtype) &&
    (!k.exS.getLsbD 2 || k.kept.frm == l.frm) && (!k.exS.getLsbD 3 || k.kept.tshape == l.tshape)

/-- A core takes live-ins that have arrived: what its chunk has neither read nor written gets their values. -/
def Core.verified (c : Core) (k : Chunk) (l : Live) : Core :=
  let seen (i : Nat) : Bool := (k.exS ||| k.wrS).getLsbD i
  { c with
    vl := if seen 0 then c.vl else l.vl
    vtype := if seen 1 then c.vtype else l.vtype
    frm := if seen 2 then c.frm else l.frm
    tshape := if seen 3 then c.tshape else l.tshape
    x := Vector.ofFn (fun i => if (k.exX ||| k.wrX).getLsbD i.val then c.x.get i else l.x.get i)
    p := Vector.ofFn (fun i => if (k.exP ||| k.wrP).getLsbD i.val then c.p.get i else l.p.get i) }

/-- Live-outs reach the chunk after the one that sent them; `actual` says whether they are final. A chunk that has finished sends
its own again. -/
def State.liveOutAt (s : State) (r : Nat) (g : Forked) (k : Chunk) (l : Live) (actual : Bool) : State :=
  let ring := s.ring r
  let k' := { k with kept := l, actual := actual, arrived := true }
  if k.restart then s.setRing r (ring.setChunk k')
  else if k.agrees l then
    let c := coreAt r k.slot
    let s := (s.setRing r (ring.setChunk k')).setCore c ((s.core c).verified k l)
    if k.finished then s.sendLiveOuts r g k' else s
  else (s.setRing r (ring.setChunk k')).squash r k.slot

/-- Without the first live-outs of a chunk. -/
def dropLiveOut (i : Nat) : List (Nat × Live) → List (Nat × Live)
  | [] => []
  | o :: os => if o.1 = i then os else o :: dropLiveOut i os

/-- LIVE_OUT_ARRIVAL (R139): the first live-outs on the ring's path whose receiver has started. They are final when their sender's
live-ins are, and it has sent none since. -/
def execLiveOutArrival (ring : Fin 256) (s : State) : Out :=
  let r := ring.val
  let g := s.ring r
  .next (match g.forked, g.liveOuts.find? (fun o => g.chunks.any (fun k => k.idx == o.1 + 1)) with
    | some f, some (i, l) =>
        (match g.chunks.find? (fun k => k.idx == i + 1) with
         | some k =>
             let rest := dropLiveOut i g.liveOuts
             let final := !rest.any (fun o => o.1 == i) && (match g.chunks.find? (fun k => k.idx == i) with
               | some p => p.actual
               | none => true)
             let s := s.setRing r { g with liveOuts := rest }
             (s.liveOutAt r f k l final).nudge r
         | none => s)
    | _, _ => s)

/-- A broadcast at a version (R143): none when it squashes; else the updated line and the offsets of the bytes that go on, those of
the words that the version has not written. (DEDUCED: log 55) -/
def Line.hear (l : Line) (off : Nat) (data : List Byte) : Option (Line × List Nat) :=
  let words := wordsOf off data.length
  if words &&& l.er ≠ 0 then none
  else
    let go := (List.range data.length).filter (fun i => !l.sw.getLsbD ((off + i) / 8))
    let d := go.foldl (fun d i => linePut d (off + i) 1 (data.getD i 0).toNat) l.data
    some ({ l with data := d, bad := l.bad &&& ~~~(fullWords (byteMask off data.length) &&& ~~~l.sw) }, go)

/-- The rest of a broadcast that goes on: whole when every byte does, else byte by byte. -/
def Bcast.rest (b : Bcast) (next : Nat) (go : List Nat) : List Bcast :=
  if go.length = b.data.length then [{ b with next := next }]
  else go.map (fun i => { b with next := next, off := b.off + i, data := [b.data.getD i 0] })

/-- One hop of a broadcast (R146). (DEDUCED: log 55) -/
def State.hop (s : State) (r : Nat) (b : Bcast) : State :=
  let slot := Fin.ofNat 16 b.next
  let c := coreAt r slot
  let onward (s : State) (go : List Nat) : State :=
    match (s.ring r).nextAfter slot with
    | none => s
    | some k =>
        let g := s.ring r
        let bs := b.rest k.slot.val go
        bs.foldl (fun s _ => s.after (.storeBroadcastArrival (Fin.ofNat 256 r))) (s.setRing r { g with bcasts := g.bcasts ++ bs })
  let all := List.range b.data.length
  if b.scratch then
    let words := (List.range ((b.line + b.data.length - 1) / 8 - b.line / 8 + 1)).map (b.line / 8 + ·)
    if words.any (fun w => (s.core c).rfilter.contains w) then s.squash r slot else onward s all
  else match s.line c b.line with
    | some l =>
        (match l.st with
         | .s _ =>
             let s := s.writeBackFirst c b.line
             let l := (s.line c b.line).getD l
             (match l.hear b.off b.data with
              | none => s.squash r slot
              | some (l, go) => onward (s.putLine c b.line l) go)
         | _ => onward s all)
    | none => onward s all

/-- STORE_BROADCAST_ARRIVAL (R146): the first broadcast on the ring's path makes one hop. -/
def execStoreBroadcastArrival (ring : Fin 256) (s : State) : Out :=
  let r := ring.val
  let g := s.ring r
  .next (match g.bcasts with
    | [] => s
    | b :: rest =>
        let s := s.setRing r { g with bcasts := rest }
        ((if (g.chunkAt (Fin.ofNat 16 b.next)).isSome then s.hop r b else s)).nudge r)

/-- CHUNK_RESTART (R149 step 4): from the first iteration, with the live-ins kept. -/
def execChunkRestart (core : Fin 4096) (s : State) : Out :=
  let r := core.val / 16
  let ring := s.ring r
  .next (match ring.forked, ring.chunkAt (slotOf core.val) with
    | some g, some k =>
        if !k.restart then s
        else
          let c := s.core core.val
          let s := s.setCore core.val (c.begin_ k.kept (g.level k.idx :: g.under) (pastFork g.f))
          s.setRing r (ring.setChunk { k with restart := false })
    | _, _ => s)

/-- LOOK_BACK_PROBE (R145): a chunk's version takes the absent words that an older chunk has written. (DEDUCED: log 105) -/
def execLookBackProbe (core : Fin 4096) (line : Nat) (s : State) : Out :=
  let c := core.val
  .next (match s.line c line with
    | some l =>
        (match l.st with
         | .s _ =>
             let found := (bitsSet (~~~(l.present ||| l.sw))).filterMap (fun i =>
               (s.lookBack c line i).map (fun v => (i, v)))
             s.putLine c line (found.foldl (fun (l : Line) e => { l with
               data := l.under e.1 e.2.1, bad := setBit l.bad e.1 e.2.2, present := setBit l.present e.1 true }) l)
         | _ => s)
    | none => s)

/-- SIBLING_INVALIDATION (R186): a speculative version gives up permission; its written words stay, the others become
absent. -/
def execSiblingInvalidation (core : Fin 4096) (line : Nat) (_fwd : Bool) (s : State) : Out :=
  let c := core.val
  .next (match s.line c line with
    | some l =>
        (match l.st with
         | .s _ =>
             if (s.ring (c / 16)).isSpec (slotOf c) && !l.soft then
               s.putLine c line { l with coh := .inv, present := l.present &&& l.sw }
             else s
         | _ => s)
    | none => s)

/-! ### The oldest chunk goes on -/

/-- The oldest chunk's core of a ring, when it waits as `want` says. (DESIGN CHOICE: log 42) -/
def State.oldestWaits (s : State) (c : Nat) (want : Wait → Bool) : Bool :=
  (s.ring (c / 16)).isOldest (slotOf c) && want (s.core c).wait

/-- A waiting core issues its instruction again. (DEDUCED: log 91) -/
def State.reissue (s : State) (c : Nat) (want : Wait → Bool) : State :=
  if s.oldestWaits c want then (s.setCore c { s.core c with wait := .none }).andThen (.core c) else s

/-- COMMIT_POINT_EXECUTE (R154). -/
def execCommitPointExecute (core : Fin 4096) (s : State) : Out := .next (s.reissue core.val (· == .commitPoint))

/-- DEFERRED_FAULT_REPLAY (R156). -/
def execDeferredFaultReplay (core : Fin 4096) (s : State) : Out := .next (s.reissue core.val (· == .deferred))

/-- OVERFLOW_STALL_END (R152). -/
def execOverflowStallEnd (core : Fin 4096) (s : State) : Out := .next (s.reissue core.val (· == .overflow))

/-- The levels below a forked one. -/
def belowForked (g : Forked) : List Level := g.under

/-- LOOP_EXIT (R144): younger chunks are discarded, the chunk commits, and the thread goes on at the target. An `exit`
that leaves its loop is its own target. -/
def execLoopExit (core : Fin 4096) (s : State) : Out :=
  let c := core.val
  let r := c / 16
  .next (match (s.ring r).forked, (s.ring r).chunks, (s.core c).wait with
    | some g, k :: _, .leave tgt link =>
        if k.slot != slotOf c || k.restart then s
        else
          let s := s.discardYounger r k.slot
          match (s.ring r).chunkAt k.slot with
          | none => s
          | some k =>
              let a := s.readyToCommit r k
              let s := a.2
              if !a.1 then s
              else
                let own := tgt == (s.core c).pc && link == none
                let s := s.commitChunk r g k (if own then 0 else 1)
                let s := s.endForked r k.slot (belowForked g) tgt
                match link with
                | some (d, w) => s.setCore c ((s.core c).setX d w)
                | none => s
    | _, _, _ => s)

/-- LOAD_RESPONSE (R65, R66): the entry is freed; a chunk that waits for it to commit is told, and a stop that waits for it (R124). -/
def execLoadResponse (core : Fin 4096) (entry : Fin 64) (s : State) : Out :=
  let r := core.val / 16
  .next (((s.freeEntry core.val entry.val).nudge r).settled r)

/-! ### Recovery regions -/

/-- A region opens in the oldest chunk: younger chunks are discarded, the chunk commits, and its loop goes on unforked
(R155). (DEDUCED: log 51) -/
def unforkHere (k : State → State) (s : State) : State :=
  let r := s.cur / 16
  match s.myRing.forked, s.myChunk with
  | some g, some h =>
      let s := s.discardYounger r h.slot
      let a := s.readyToCommit r h
      let s := a.2
      if !a.1 then s.waitFor .oreq
      else
        let c := s.me
        let s := s.commitChunk r g h 0
        let ls := c.levels.map (fun l => if l.forked then { l with forked := false } else l)
        k (s.endForked r h.slot ls c.pc)
  | _, _ => k s

/-- Open a region (R253). (DEDUCED: log 51) -/
def openRegion (d : Reg) (limit : Nat) (s : State) : State :=
  let c := s.me
  let g : Region :=
    { start := c.logTail, vl := c.vl, vtype := c.vtype, frm := c.frm, tshape := c.tshape, fflags := c.fflags,
      levels := c.levels, strip := c.strip, limit := limit, retry := 0, unrec := false, snap := none, xd := d,
      resume := c.pc + 12 }
  (s.setMe (({ c with regions := g :: c.regions } : Core).setX d 0)).adv 12

/-- `rgn.begin` (R253, R420). (DEDUCED: log 51) -/
def execRgnBegin (o : RegImm) (s : State) : Out :=
  .next (threadOnly s (fun s =>
    if 4 ≤ s.me.depth then trapAt 0x10 0 0 s
    else commitPoint s (unforkHere (openRegion o.d (o.imm.toNat % 256)))))

/-- The body of a register snapshot: the vector mask, then the kept registers (R421). -/
def Core.snapshot (c : Core) (sm vm : Word) : List Nat :=
  vm.toNat :: (((bitsSet sm).map (fun i => (c.x.toList.getD i 0).toNat)) ++
    (bitsSet vm).flatMap (fun i =>
      let v := c.v.toList.getD i 0
      (List.range 64).map (fun w => (v.extractLsb' (64 * w) 64).toNat)))

/-- `rgn.keep` (R421). -/
def execRgnKeep (o : KeepF) (s : State) : Out :=
  .next (threadOnly s (fun s =>
    match s.me.regions with
    | [] => trapAt 0x10 0 0 s
    | _ =>
        let sm := s.x o.a &&& ~~~(1#64)
        let vm := s.x o.b
        if sm = 0 ∧ vm = 0 then s.adv 8
        else
          let tail := s.me.logTail
          let s := s.logEntry s.cur (2 * 2 ^ 62) sm.toNat (s.me.snapshot sm vm)
          let c := s.me
          (match c.regions with
           | g :: gs =>
               if c.logTail = tail then s else s.setMe { c with regions := { g with snap := some tail } :: gs }
           | [] => s).adv 8))

/-- A line at the end of depth `d`'s region (R143). -/
def Line.endRegion (l : Line) (d : Nat) : Line :=
  match l.st with
  | .g e =>
      if e ≠ d then l
      else if d = 1 then { l with st := .n, sw := 0, er := 0, bad := 0, present := 0, dirty := true, rel := none }
      else { l with st := .g (d - 1) }
  | _ => l

/-- The bytes of a region's versions reach level two when its outermost region ends: the line is then committed and
dirty. A soft line keeps its dirty mask. -/
def State.settleRegion (s : State) (c : Nat) : State :=
  (s.core c).l1.foldl (fun s e =>
    match e.2.st with
    | .g _ =>
        if e.2.soft then s
        else
          (s.commitVersion e.1 e.2).putLine c e.1 { e.2 with sdirty := 0, full := 0 }
    | _ => s) s

/-- Close the innermost region of a core (R257). -/
def State.closeRegion (s : State) (c : Nat) : State :=
  let d := (s.core c).depth
  let s := if d = 1 then s.settleRegion c else s
  let k := s.core c
  let k := { k with
    regions := k.regions.drop 1, l1 := k.l1.map (fun e => (e.1, e.2.endRegion d)) }
  s.setCore c (if d = 1 then { k with logTail := 0, logOvf := false } else k)

/-- `rgn.end` (R257, R421). -/
def execRgnEnd (s : State) : Out :=
  .next (threadOnly s (fun s =>
    if s.me.depth = 0 then trapAt 0x10 0 0 s else (s.closeRegion s.cur).adv 8))

end Sys2Proof.Machine
end

