-- ==== Sys2Proof/Machine/System.lean ====
section
/-! DEFINITION. Fences and `rel.widen` (R354–R356), the system registers (R310, R358–R360). -/

namespace Sys2Proof.Machine

open Sys2Proof

/-! ### Fences -/

/-- A fence of a kind: 0 acquire, 1 release, 2 full; those of scope wider than core are commit points (R209, R325). (DEDUCED: log 29) -/
def fenceOf (kind : Nat) (o : ScopeF) (s : State) : Out :=
  let sc := o.sc.val
  let wide := 0 < sc
  .next (wideSync wide s (fun s => stickyIf wide s (fun s => commitIf wide s (fun s =>
    let t := s.fence s.cur kind sc
    if wide && kind != 0 && (!t.reached sc || s.unacked s.cur sc) then t.waitFor .release else t.adv 8))))

/-- `fence.acq`. -/
def execFenceAcq (o : ScopeF) (s : State) : Out := fenceOf 0 o s
/-- `fence.rel`. -/
def execFenceRel (o : ScopeF) (s : State) : Out := fenceOf 1 o s
/-- `fence.full`. -/
def execFenceFull (o : ScopeF) (s : State) : Out := fenceOf 2 o s

/-- A version of the line that a synchronisation names is committed, so that its tag stands at the line's home. (DEDUCED: log 56) -/
def State.publish (s : State) (va : Nat) : State :=
  match s.syncLine s.who va with
  | none => s
  | some a =>
      match s.line a.core a.ln with
      | some l => if l.st == .n then s else (s.writeVersion a.core a.ln l).leaveLine a.core a.ln false
      | none => s

/-- Step 2 of R225: widen the tag of a line released by this ring and key. -/
def State.widenTag (s : State) (va sc : Nat) : State :=
  match s.syncLine s.who va with
  | none => s
  | some a =>
      match (s.dir a.ln).tag with
      | none => s
      | some t =>
          if t.key = s.key ∧ t.ring = s.cur / 16 ∧ t.scope < sc then
            s.putDir a.ln { s.dir a.ln with tag := some { t with scope := sc } }
          else s

/-- `rel.widen` (R225, R355, R356). -/
def execRelWiden (o : WidenF) (s : State) : Out :=
  let sc := o.sc.val
  let va := (s.x o.a).toNat
  .next (threadOnly s (fun s => wideSync true s (fun s => stickyIf (0 < sc) s (fun s => commitIf true s (fun s =>
    match s.place s.who 0 va 1 with
    | (s, .error f) => faultTrap [f] s
    | (s, .ok (.held x)) => s.waitFor x
    | (s, .ok _) =>
        let s := (s.publish va).release s.who va sc
        if !s.reached sc || (0 < sc && s.unacked s.cur sc) then s.waitFor .release else (s.widenTag va sc).adv 8)))))

/-! ### The map of R310 -/

/-- System registers by index. -/
inductive Sys where
  | vl | mvl | vtype | fflags | frm | tren | srseed | vcm (k : Nat) | mgrant | tshape | tprog | chunk | specst | rgnst
  | rgnlog | smev | rb (n : Nat) | rbovf | cpmask | oreq | utvec | ucause | uepc | uval | cycle | time | coreid
  | tmask (k : Nat) | tstk | lret | tvec | tcause | tepc | tval | ctxbase
  deriving DecidableEq, Repr

/-- The register of an index, none for a reserved one. -/
def sysOf (i : Nat) : Option Sys :=
  if 0x008 ≤ i ∧ i < 0x010 then some (.vcm (i - 0x008))
  else if 0x020 ≤ i ∧ i < 0x024 then some (.rb (i - 0x020))
  else if 0x038 ≤ i ∧ i < 0x040 then some (.tmask (i - 0x038))
  else match i with
    | 0x000 => some .vl
    | 0x001 => some .mvl
    | 0x002 => some .vtype
    | 0x003 => some .fflags
    | 0x004 => some .frm
    | 0x005 => some .tren
    | 0x006 => some .srseed
    | 0x010 => some .mgrant
    | 0x011 => some .tshape
    | 0x012 => some .tprog
    | 0x018 => some .chunk
    | 0x019 => some .specst
    | 0x01A => some .rgnst
    | 0x01B => some .rgnlog
    | 0x01C => some .smev
    | 0x024 => some .rbovf
    | 0x025 => some .cpmask
    | 0x026 => some .oreq
    | 0x028 => some .utvec
    | 0x029 => some .ucause
    | 0x02A => some .uepc
    | 0x02B => some .uval
    | 0x030 => some .cycle
    | 0x031 => some .time
    | 0x032 => some .coreid
    | 0x040 => some .tstk
    | 0x041 => some .lret
    | 0x080 => some .tvec
    | 0x081 => some .tcause
    | 0x082 => some .tepc
    | 0x083 => some .tval
    | 0x084 => some .ctxbase
    | _ => none

/-- Handler-only registers (R227). (DEDUCED: log 67) -/
def Sys.handlerOnly : Sys → Bool
  | .tvec | .tcause | .tepc | .tval | .ctxbase => true
  | _ => false

/-- Registers whose `sysw` a region permits (R258). -/
def Sys.regionOk : Sys → Bool
  | .vl | .vtype | .frm | .tshape | .fflags | .vcm _ | .tprog | .tren => true
  | _ => false

/-- Registers whose `sysr` is no commit point (R155). -/
def Sys.freeRead : Sys → Bool
  | .vl | .mvl | .vtype | .frm | .tshape | .tprog | .vcm _ | .mgrant | .chunk => true
  | _ => false

/-! ### Values (R311) -/

/-- Word `k` of a 512-bit register. -/
def word512 (b : BitVec 512) (k : Nat) : Word := b.extractLsb' (64 * k) 64

/-- Replace word `k`. -/
def setWord512 (b : BitVec 512) (k : Nat) (w : Word) : BitVec 512 := setFld b (64 * k) 64 w.toNat

/-- The register of a receive buffer (R197). -/
def Rb.word (r : Rb) : Word :=
  wd (r.tail % 2 ^ 19 * 2 ^ 45 + r.head % 2 ^ 19 * 2 ^ 26 + r.lsz % 8 * 2 ^ 20 + r.base % 64 * 2 ^ 12 + bitN r.en)

/-- `specst` (R159). -/
def State.specst (s : State) : Word :=
  let g := s.myRing
  let fk := g.forked.isSome
  let w := match g.forked with
    | some f => f.w - 1
    | none => 0
  wd (g.nsq * 2 ^ 48 + g.nov * 2 ^ 32 + (if fk then g.chunks.length else 0) * 2 ^ 24 + g.head.val * 2 ^ 20 + w * 2 ^ 16 +
    bitN g.ns * 4 + bitN (s.me.depth != 0) * 2 + bitN fk)

/-- `rgnst` (R254). -/
def Core.rgnst (c : Core) : Word :=
  let un := (c.regions.reverse.zipIdx).foldl (fun a e => a + bitN e.1.unrec * 2 ^ e.2) 0
  let inner := c.regions.head?
  let f (p : Region → Nat) : Nat := match inner with
    | some g => p g
    | none => 0
  wd (c.depth * 2 ^ 61 + un * 2 ^ 57 + c.logTail * 2 ^ 44 + f Region.retry * 2 ^ 36 + f Region.limit * 2 ^ 28 +
    bitN c.logOvf)

/-- Nanoseconds since cold reset, of a 1.2 GHz arithmetic clock. (DESIGN CHOICE: log 102) -/
def State.nanos (s : State) : Nat := s.cycle * 5 / 6

/-- The value of a system register at the executing core (R311). The thread's flags while forked are those committed with
those of its oldest chunk (R153). -/
def State.sysValue (s : State) (r : Sys) : Word :=
  let c := s.me
  let g := s.myRing
  match r with
  | .vl => wd c.vl
  | .mvl => wd c.mvl
  | .vtype => c.vtype
  | .fflags => (if s.inChunk then g.tflags ||| c.fflags else c.fflags).zeroExtend 64
  | .frm => wd c.frm
  | .tren => c.tren.zeroExtend 64
  | .srseed => c.srseed
  | .vcm k => word512 c.vcm k
  | .mgrant => wd (c.mreq * 2 ^ 20 + c.mslabs.toNat * 2 ^ 8 + c.slabs)
  | .tshape => wd (c.tshape.cols * 2 ^ 16 + c.tshape.rows)
  | .tprog => wd (bitN c.tpAct * 2 ^ 15 + c.tpProg)
  | .chunk => (match s.myChunk with
    | some k => k.num
    | none => g.chunkCtr).zeroExtend 64
  | .specst => s.specst
  | .rgnst => c.rgnst
  | .rgnlog => wd (c.logBase * 2 ^ 16 + bitN c.logEn)
  | .smev => g.smev
  | .rb n => (c.rb.toList.getD n {}).word
  | .rbovf => c.rbovf
  | .cpmask => c.cpmask.zeroExtend 64
  | .oreq => wd c.inUse
  | .utvec => c.utvec
  | .ucause => c.ucause
  | .uepc => c.uepc
  | .uval => c.uval
  | .cycle => wd s.cycle
  | .time => wd s.nanos
  | .coreid => wd (s.cur % 4096)
  | .tmask k => word512 c.tmask k
  | .tstk => c.tstk.zeroExtend 64
  | .lret => c.lret
  | .tvec => c.tvec
  | .tcause => c.tcause
  | .tepc => c.tepc
  | .tval => c.tval
  | .ctxbase => c.ctxbase

/-- Values that capture records and replay returns (R260): buffer registers, time and cycle. (DEDUCED: log 69) -/
def State.sysRead (s : State) (r : Sys) : Word × State :=
  let v := s.sysValue r
  match r with
  | .rb n =>
      let t := s.input s.cur 0x02 16 [fld v.toNat 45 19, n]
      (wd (t.1.headD 0 % 2 ^ 19 * 2 ^ 45 + fld v.toNat 0 45), t.2)
  | .cycle =>
      let t := s.input s.cur 0x05 16 [v.toNat, 0x030]
      (wd (t.1.headD 0), t.2)
  | .time =>
      let t := s.input s.cur 0x05 16 [v.toNat, 0x031]
      (wd (t.1.headD 0), t.2)
  | _ => (v, s)

/-! ### Writes (R311, R360) -/

/-- A layout that a receive buffer may be enabled with (R197). -/
def Rb.valid (r : Rb) : Bool :=
  r.lsz ≤ 6 && r.base * 4096 % (4096 * 2 ^ r.lsz) == 0 && r.base * 4096 + 4096 * 2 ^ r.lsz ≤ 0x40000

/-- A head written beyond tail is taken as equal to tail: the occupancy it gives exceeds the buffer's size (R197). (DEDUCED: log 60) -/
def Rb.clampHead (r : Rb) (h : Nat) : Nat :=
  if 4096 * 2 ^ r.lsz < (r.tail + 2 ^ 19 - h) % 2 ^ 19 then r.tail else h

/-- `sysw` of a buffer register (R197). (DEDUCED: log 60) -/
def Rb.write (r : Rb) (w : Word) : Rb :=
  let lsz := fld w.toNat 20 3
  let base := fld w.toNat 12 6
  let moved := r.en && (lsz != r.lsz || base != r.base)
  let n : Rb := { r with lsz := lsz, base := base }
  let en := w.getLsbD 0 && n.valid
  if en && (moved || !r.en) then { n with en := true, head := 0, tail := 0 }
  else { n with en := en, head := n.clampHead (fld w.toNat 26 19) }

/-- `sysw` of `smev`: v is W1C, lost and ie are written (R224). -/
def smevWrite (old w : Word) : Word :=
  setFld (setFld (setFld old 63 1 (if w.getLsbD 63 then 0 else fld old.toNat 63 1)) 56 7 (fld w.toNat 56 7)) 55 1
    (fld w.toNat 55 1)

/-- `sysw` of `tshape` (R400). -/
def TShape.write (t : TShape) (w : Word) : TShape :=
  let r := fld w.toNat 0 5
  let c := fld w.toNat 16 8
  { rows := if r = 0 ∨ 16 < r then t.rows else r, cols := if c = 0 ∨ 128 < c then t.cols else c }

/-- One write of a whole system register (R311). Registers that are read-only from the present mode keep their value; a
trap register is read-only in every field but `tepc`, `tval`, `tvec` and `ctxbase`. (DEDUCED: log 67) -/
def State.sysWrite (s : State) (r : Sys) (w : Word) : State :=
  let c := s.me
  let g := s.myRing
  match r with
  | .vl => s.setMe (c.setVl w.toNat)
  | .vtype => s.setMe (c.setVt w)
  | .fflags =>
      let f := w.truncate 5
      if s.inChunk then (s.setMe { c with fflags := 0 }).setMyRing { g with tflags := f } else s.setMe { c with fflags := f }
  | .frm => s.setMe { c with frm := if 6 ≤ fld w.toNat 0 3 then c.frm else fld w.toNat 0 3 }
  | .tren => s.setMe { c with tren := w.truncate 5 }
  | .srseed =>
      let t := s.input s.cur 0x06 16 [w.toNat, 1]
      t.2.setMe { t.2.me with srseed := wd (t.1.headD 0) }
  | .vcm k => s.setMe { c with vcm := setWord512 c.vcm k w }
  | .tshape => s.setMe { c with tshape := c.tshape.write w }
  | .tprog => s.setMe { c with tpAct := w.getLsbD 15, tpProg := fld w.toNat 0 7 }
  | .specst => s.setMyRing { g with ns := w.getLsbD 2 }
  | .rgnlog => s.setMe { c with logBase := fld w.toNat 16 2, logEn := w.getLsbD 0 }
  | .smev => s.setMyRing { g with smev := smevWrite g.smev w }
  | .rb n => (s.setMe { c with rb := c.rb.setIfInBounds n ((c.rb.toList.getD n {}).write w) }).wakeHeld s.cur
  | .rbovf => s.setMe { c with rbovf := w }
  | .cpmask => s.setMe { c with cpmask := w.truncate 32 }
  | .utvec => s.setMe { c with utvec := w }
  | .ucause => s.setMe { c with ucause := w &&& 0xF000000000FFFFFF }
  | .uepc => s.setMe { c with uepc := w }
  | .uval => s.setMe { c with uval := w }
  | .tstk => if c.handler then s.setMe { c with tstk := w.truncate 8 &&& 0xF7#8 } else s
  | .tvec => s.setMe { c with tvec := w }
  | .tepc => s.setMe { c with tepc := w }
  | .tval => s.setMe { c with tval := w }
  | .ctxbase => s.setMe { c with ctxbase := w &&& 0x01FFFFFFFFFE0000 }
  | .mvl | .mgrant | .chunk | .rgnst | .oreq | .cycle | .time | .coreid | .tmask _ | .lret | .tcause => s

/-- `sysw` of an index (R359). (DEDUCED: log 69) -/
def syswOf (a : Reg) (i : Nat) (gd : Guard) (s : State) : Out :=
  .next (match sysOf i with
    | none => illegal 2 s
    | some r =>
        if r.handlerOnly && !s.me.handler then privileged s
        else wideSync (!r.regionOk) s (fun s => guarded gd 8 s (fun s => commitIf true s (fun s =>
          (s.sysWrite r (s.x a)).adv 8))))

/-- `sysr` (R359). (DEDUCED: log 69) -/
def execSysr (o : SysrF) (s : State) : Out :=
  .next (match sysOf o.idx.val with
    | none => illegal 2 s
    | some r =>
        if r.handlerOnly && !s.me.handler then privileged s
        else guarded o.gd 8 s (fun s => commitIf (!r.freeRead) s (fun s =>
          let v := s.sysRead r
          (v.2.setX o.d v.1).adv 8)))

/-- `sysw` of the registers with no row of their own. -/
def execSysw (o : SyswF) (s : State) : Out := syswOf o.a o.idx.val o.gd s
/-- `sysw` of `rb0`–`rb3`. -/
def execSyswRb (o : SyswRbF) (s : State) : Out := syswOf o.a (0x020 + o.n.val) o.gd s
/-- `sysw` of `smev`. -/
def execSyswSmev (o : SyswOne) (s : State) : Out := syswOf o.a 0x01C o.gd s
/-- `sysw` of `tstk`. -/
def execSyswTstk (o : SyswOne) (s : State) : Out := syswOf o.a 0x040 o.gd s
/-- `sysw` of `srseed`. -/
def execSyswSrseed (o : SyswOne) (s : State) : Out := syswOf o.a 0x006 o.gd s
/-- `sysw` of `vl`. -/
def execSyswVl (o : SyswOne) (s : State) : Out := syswOf o.a 0x000 o.gd s
/-- `sysw` of `vtype`. -/
def execSyswVtype (o : SyswOne) (s : State) : Out := syswOf o.a 0x002 o.gd s
/-- `sysw` of `tshape`. -/
def execSyswTshape (o : SyswOne) (s : State) : Out := syswOf o.a 0x011 o.gd s
/-- `sysw` of `specst`: only ns is written. -/
def execSyswSpecst (o : SyswOne) (s : State) : Out := syswOf o.a 0x019 o.gd s

end Sys2Proof.Machine
end

