-- ==== Sys2Proof/Machine/Context.lean ====
section
/-! DEFINITION. Interrupts and the context area (R124, R226, R232, R240–R243): saving a thread's context, entering the
handler by an interrupt, and the returns from the handlers (R361). -/

namespace Sys2Proof.Machine

open Sys2Proof

/-! ### What the context area holds (R240) -/

/-- The system registers marked saved in R310, in ascending index order. -/
def savedSys : List Sys :=
  [.vl, .vtype, .fflags, .frm, .tren, .srseed] ++ (List.range 8).map Sys.vcm ++
    [.tshape, .tprog, .chunk, .specst, .rgnst, .rgnlog, .smev] ++ (List.range 4).map Sys.rb ++
    [.rbovf, .cpmask, .utvec, .ucause, .uepc, .uval] ++ (List.range 8).map Sys.tmask ++ [.tstk, .tcause, .tepc, .tval]

/-- Cut a number into pieces of `n` bytes at rising offsets. -/
def pieces (base n count v : Nat) : List (Nat × Nat × Nat) :=
  (List.range count).map (fun i => (base + n * i, n, fld v (8 * n * i) (8 * n)))

/-- The packets that wait whole at a core to be appended, in their order of arrival. -/
def State.waiting (s : State) (c : Nat) : List Pkt :=
  s.fab.pkts.filter (fun p => p.kind == 7 && p.away.isNone && p.dcore == c && p.phase == .fly && p.head && p.whole && !p.open_)

/-- Of the packets that wait, those that fit the 16 KiB spill buffer. (DEDUCED: log 39) -/
def spillFit : List Pkt → Nat → List Pkt
  | [], _ => []
  | p :: ps, room =>
      if entryBytes p.payload.length ≤ room then p :: spillFit ps (room - entryBytes p.payload.length)
      else spillFit ps room

/-- A list of words, cut or filled with zeros to `n`. -/
def filled (n : Nat) (ws : List Nat) : List Nat := (ws ++ List.replicate n 0).take n

/-- The words of a fork level. (DESIGN CHOICE: log 35) -/
def Level.words (l : Level) : List Nat := [l.f.toNat, l.e.toNat, l.n, l.k, l.iter, l.forked.toNat, l.seed.toNat]

/-- The words of four fork levels. (DESIGN CHOICE: log 35) -/
def levelWords (ls : List Level) : List Nat := filled 28 (ls.flatMap Level.words)

/-- One word of `vl`, `frm` and `tshape`. (DESIGN CHOICE: log 35) -/
def shapeWord (vl frm : Nat) (t : TShape) (fl : BitVec 5) : Nat :=
  vl + frm * 2 ^ 16 + t.rows * 2 ^ 24 + t.cols * 2 ^ 32 + fl.toNat * 2 ^ 40

/-- The words of live-ins, without `x0` and `p0`. (DESIGN CHOICE: log 35) -/
def Live.words (l : Live) : List Nat :=
  (l.x.toList.drop 1).map (·.toNat) ++
    (l.p.toList.drop 1).flatMap (fun p => (List.range 8).map (fun i => fld p.toNat (64 * i) 64)) ++
    [shapeWord l.vl l.frm l.tshape 0, l.vtype.toNat]

/-- The words of a strip (R369). (DESIGN CHOICE: log 35) -/
def Strip.words (p : Strip) : List Nat := [p.act.toNat, p.start.toNat, p.exit.toNat, p.rem, p.done, p.slen, p.ix.val]

/-- The words of up to eight induction declarations (R418). (DESIGN CHOICE: log 35) -/
def indWords (l : List (Reg × Word)) : List Nat := filled 17 (l.length :: l.flatMap (fun e => [e.1.val, e.2.toNat]))

/-- The words of an open region (R253, R254). (DESIGN CHOICE: log 35) -/
def Region.words (g : Region) : List Nat :=
  levelWords g.levels ++ g.strip.words ++
    [g.start, shapeWord g.vl g.frm g.tshape g.fflags, g.vtype.toNat,
     g.limit + g.retry * 2 ^ 8 + g.unrec.toNat * 2 ^ 16 + g.xd.val * 2 ^ 24, (match g.snap with | some o => o + 1 | none => 0),
     g.resume.toNat]

/-- The block at offset 0x1000, whose layout is the model's own: the fork state of R160 with the oldest chunk's number,
index, position, depth and kept live-ins, the learned strides and the induction declarations (R418), the fork levels, the open regions,
the strip (R369), and `mvl` and the slabs requested (R403). (DESIGN CHOICE: log 35) -/
def State.forkBlock (s : State) (c : Nat) : List (Nat × Nat × Nat) :=
  let k := s.core c
  let g := s.ring (c / 16)
  let loop : List Nat := match g.forked, g.chunkAt (slotOf c) with
    | some f, some o => [1, f.f.toNat, f.e.toNat, f.n, f.k, f.w, f.c0.toNat, f.h.val, o.num.toNat, o.idx, o.done, o.depth]
    | _, _ => []
  let live : List Nat := match g.chunkAt (slotOf c) with
    | some o => o.kept.words
    | none => []
  let strides : List Nat := match g.forked.bind (fun f => g.strides.find? (fun e => e.1 == f.f)) with
    | some e => e.1.toNat :: e.2.toList.map (·.toNat)
    | none => []
  let words := filled 12 loop ++ [k.lanes, k.levels.length, k.regions.length, strides.length, k.mreq] ++ filled 185 live ++
    filled 65 strides ++ k.strip.words ++ indWords k.inds ++ indWords (match g.forked with
      | some f => f.inds
      | none => []) ++ levelWords k.levels ++ k.regions.flatMap Region.words
  ((filled 512 words).zipIdx).map (fun e => (0x1000 + 8 * e.2, 8, e.1))

/-- The context area of a core as step 4 of R124 writes it: offset, size and value of each piece. `Saved` keeps, besides,
what goes on after the handler. (DESIGN CHOICE: log 35, 36) -/
def State.contextImage (s : State) (c : Nat) (spilled : List Pkt) : List (Nat × Nat × Nat) :=
  let k := s.core c
  let m := { s with cur := c }
  let regs := (List.finRange 64).flatMap (fun i => [(8 * i.val, 8, if i.val = 0 then 0 else (k.x.get i).toNat)])
  let preds := (List.finRange 16).map (fun i => (0x200 + 64 * i.val, 64, (k.getP i).toNat))
  let sys := (savedSys.zipIdx).map (fun e => (0x600 + 8 * e.2, 8, (m.sysValue e.1).toNat))
  let vecs := (List.finRange 64).flatMap (fun i => pieces (0x2000 + 512 * i.val) 128 4 (k.v.get i).toNat)
  let tiles := (List.finRange 4).flatMap (fun i => pieces (0xA000 + 16384 * i.val) 128 128 (k.t.get i).toNat)
  let words := spilled.flatMap (fun p => p.entry p.full)
  let spill := (words.zipIdx).map (fun e => (0x1A000 + 8 * e.2, 8, e.1))
  regs ++ preds ++ sys ++ s.forkBlock c ++ vecs ++ tiles ++ spill ++ pieces 0x1E000 128 32 k.staging.toNat

/-- Store the pieces of a context into the area that `ctxbase` names, under the job's translation (R241). (DEDUCED: log 38) -/
def State.saveAt (s : State) (w : Who) (base : Nat) : List (Nat × Nat × Nat) → Res
  | [] => .ok 0 s
  | (o, n, v) :: ps => (s.storeAt w (base + o) n v).bind (fun _ s => State.saveAt s w base ps)

/-- Save the context of a core: into its scratchpad, which cannot fault, or by stores (R241). (DEDUCED: log 38) -/
def State.saveContext (s : State) (c : Nat) (ps : List (Nat × Nat × Nat)) : Res :=
  let base := (s.core c).ctxbase.toNat
  if base = 0 then .ok 0 (ps.foldl (fun s e => s.padPut c (0x40000 + e.1) e.2.1 e.2.2) s)
  else s.saveAt { core := c, key := s.keyOf c, thread := false } base ps

/-- A detected error on a store that saves context, at an address (R242). (DEDUCED: log 38) -/
def saveError (va : Nat) : AccFault := { cause := 11, acc := 1, va := va }

/-- A save fault (R242): a record with acc 1, error log code 0x0230, and every launch of the job ends with status 3. -/
def State.saveFault (s : State) (c : Nat) (pc : Word) (f : AccFault) : State :=
  let key := s.keyOf c
  let s := s.record (c / 128) key c pc { f with save := true }
  let s := (s.setCore c { s.core c with stopping := none }).log (entry key c 0x0230 0 3 0 [pc])
  match (s.ring (c / 16)).thread with
  | some t => (s.job t.job).active.foldl (fun s i => s.endLaunch t.job i 3) s
  | none => s

/-! ### Entry -/

/-- Steps 1 to 5 of R124 at the core of the oldest chunk: speculative chunks are discarded (R160), outstanding requests
complete, the handler is entered, the context is saved and appending stops. -/
inductive Stop where
  | done (s : State)
  | wait (s : State)
  | fault (s : State)
  deriving DecidableEq, Repr

/-- Perform them: steps 1 and 2 at once, and steps 4 and 5 when nothing is outstanding (step 3); a detected error may come between. (DEDUCED: log 103) -/
def State.stopThread (s : State) (c : Nat) (i : IntrKind) (val : Word) : Stop :=
  let r := c / 16
  if (s.core c).stopping ≠ some i then
    let s := s.discardYounger r (slotOf c)
    let s := s.setCore c { s.core c with stopping := some i }
    .wait (if s.quiet r then s.stopAgain c i else s)
  else if !s.quiet r then .wait s
  else
  let k := s.core c
  let fit := spillFit (s.waiting c) 16384
  let pids := fit.map (·.pid)
  let keep : Saved := { pc := k.pc, strip := k.strip, lanes := k.lanes, mreq := k.mreq, wait := k.wait }
  let s := s.setCore c { k.interrupted (intrCode i) val with
    mslabs := 0, stopping := none, spill := pids, saved := some keep }
  match s.saveContext c (s.contextImage c fit) with
  | .wait _ s => .wait (s.setCore c k)
  | .flt f s => .fault (s.saveFault c k.pc f)
  | .err s => .fault (s.saveFault c k.pc (saveError k.ctxbase.toNat))
  | .ok _ s =>
      .done { s with fab := { s.fab with
        pkts := s.fab.pkts.map (fun p => if pids.contains p.pid then { p with phase := .spilled } else p) } }

/-- The core where an interrupt for a ring goes: that of its oldest chunk, or `c` when no thread runs there. (DEDUCED: log 37) -/
def State.intrCore (s : State) (r c : Nat) : Nat :=
  let g := s.ring r
  if g.thread.isSome then coreAt r g.head else c

/-- A wait that an interrupt does not cut short: of a chunk that commits or leaves its loop, of a remote atomic. -/
def Wait.atomic : Wait → Bool
  | .commit | .leave _ _ | .remote _ _ _ => true
  | _ => false

/-- An interrupt reaches a core. It is held while the handler runs (R235), while another interrupt stops the thread,
while a remote atomic is outstanding (R124 step 3), and while a finished chunk commits or leaves its loop. (DEDUCED: log 37) -/
def State.interrupt (s : State) (c : Nat) (i : IntrKind) (val : Word) : State :=
  let k := s.core c
  if k.handler || (k.stopping.isSome && k.stopping != some i) || k.wait.atomic then
    s.setCore c { k with held := k.held ++ [i] }
  else if (s.ring (c / 16)).thread.isNone then s.setCore c (k.interrupted (intrCode i) val)
  else match s.stopThread c i val with
    | .done s | .wait s | .fault s => s

/-- INTERRUPT_DELIVERY (R124): the interrupts of R229. The steps that park or end a thread perform the whole of it; a park
delivered alone is a scheduler interrupt, and a cancellation ends the thread of a launch that has ended. (DEDUCED: log 103) -/
def execInterruptDelivery (ring : Fin 256) (k : IntrKind) (s : State) : Out :=
  let r := ring.val
  let c := s.intrCore r (16 * r)
  .next (match k with
    | .sched | .park => s.interrupt c .sched 0
    | .scopeMiss => s.interrupt c .scopeMiss (s.ring r).smevAt
    | .faultQueue cl =>
        let i := (Table.get s.frq cl.val {}).icore
        s.interrupt (s.intrCore r (if i / 16 = r then i else 16 * r)) (.faultQueue cl) 0
    | .cancel =>
        (match (s.ring r).thread with
         | some t => if (s.recd t.job t.record).st == .completing then s.endRing r else s
         | none => s))

/-! ### Return -/

/-- What a thread still waits for after an interrupt: its `drain` or `exit` is executed again (R432, R437). -/
def Wait.kept : Wait → Wait
  | .drain _ | .exit _ => .none
  | w => w

/-- The thread of the executing core goes on after its handler: slabs up to the saved request (R403), what a saved
context keeps besides its registers, the messages, the other chunks, an event it waits for, and the interrupts held
meanwhile. `waits` says
whether it goes on with what it waited for. (DEDUCED: log 38) -/
def State.resume (waits : Bool) (s : State) : State :=
  let k := s.me
  let s := match k.saved with
    | none => s
    | some v =>
        (s.setMe { k with
          strip := v.strip, lanes := v.lanes, mreq := v.mreq, saved := none, wait := if waits && k.pc == v.pc then v.wait.kept else .none }).takeSlabs s.cur
  let s := s.refork (s.cur / 16)
  let s := (s.rejoin.nudge (s.cur / 16)).syncNote s.key
  let s := match s.me.wait with
    | .qpush _ => s.after (.qpushEvent (Fin.ofNat 4096 s.cur))
    | .qpop _ _ _ => s.after (.qpopEvent (Fin.ofNat 4096 s.cur))
    | _ => s
  s.redeliver s.cur

/-- Trap 0x03 at a return whose target is misaligned, as at a `jr`. (DEDUCED: log 68) -/
def alignedReturn (tgt : Word) (s : State) (k : State → State) : State :=
  if tgt.toNat % 4 = 0 then k s else faultTrap [{ cause := 7, acc := 4, va := tgt.toNat }] s

/-- `tret` (R361): it restores no register. (DEDUCED: log 38, 68) -/
def execTret (s : State) : Out :=
  .next (if s.me.handler then alignedReturn s.me.tepc s (fun s => (returnTrap s).resume true)
    else privileged s)

/-- `uret` (R361). (DEDUCED: log 68) -/
def execUret (s : State) : Out :=
  .next (if s.me.handler then privileged s else alignedReturn s.me.uepc s returnUser)

/-- The firmware handler delivers its trap to the user handler (R232). (DESIGN CHOICE: log 40) -/
def deliverTurn (s : State) : State :=
  if s.me.handler then
    let t := deliverUser s
    if t.me.handler then t else t.resume false
  else s

end Sys2Proof.Machine
end

