-- ==== Sys2Proof/Machine/Vector.lean ====
section
/-! DEFINITION. Vector configuration, arithmetic, compares, predicates and permutes (R362–R379). -/

namespace Sys2Proof.Machine

open Sys2Proof

/-! ### Elements (R308, R363) -/

/-- Element `i` of width `w`. -/
def elemOf (v : BitVec 4096) (w i : Nat) : Nat := (v.extractLsb' (w * i) w).toNat

/-- Replace element `i` of width `w`. -/
def setElem (v : BitVec 4096) (w i x : Nat) : BitVec 4096 := setFld v (w * i) w x

/-- The active elements below `vl`, ascending (R363). -/
def Core.actives (c : Core) (gd : Guard) : List Nat := (List.range c.vl).filter (c.active gd)

/-- An element's result. -/
structure VRes where
  i : Nat
  r : FRes
  deriving DecidableEq, Repr

/-- The flags of all elements. -/
def flagsOf (rs : List VRes) : FlagSet := rs.foldl (fun f e => f ||| e.r.fl) 0

/-- The elements that set an enabled flag (R231). -/
def maskOf (tren : FlagSet) (rs : List VRes) : BitVec 512 :=
  rs.foldl (fun m e => if e.r.fl &&& tren = 0 then m else setBit m e.i true) 0

/-- Write results into a vector register. -/
def putElems (v : BitVec 4096) (w : Nat) (rs : List VRes) : BitVec 4096 :=
  rs.foldl (fun v e => setElem v w e.i e.r.bits) v

/-- End an elementwise instruction: write the elements, set the flags, advance, trap for an enabled flag (R365, R375). -/
def finishV (d : Reg) (w len : Nat) (rs : List VRes) (s : State) : State :=
  let c := s.me
  let fl := flagsOf rs
  arithEnd fl (maskOf c.tren rs) s (((s.setMe (c.setV d (putElems (c.getV d) w rs))).orFlags fl).adv len)

/-- The element width of the type must be that of `vtype` (R362). -/
def widthOk (w : Nat) (s : State) (k : State → State) : State := operandOk (w == s.me.ew) s k

/-- A predicate field must name `p0`–`p15` (R364). -/
def predOk (r : Reg) (s : State) (k : State → State) : State := operandOk (r.val < 16) s k

/-- The predicate register that a field names. -/
def predOf (r : Reg) : Fin 16 := Fin.ofNat 16 r.val

/-- An elementwise instruction of width `w` (R375). -/
def elemwise (gd : Guard) (d : Reg) (w len : Nat) (f : Core → Nat → FRes) (s : State) : State :=
  widthOk w s (fun s => finishV d w len ((s.me.actives gd).map (fun i => ⟨i, f s.me i⟩)) s)

/-! ### Configuration (R368, R370) -/

/-- The operand of `setvl` and `setvt`. -/
def State.setOperand (s : State) (o : SetF) : Word := if o.a.val = 0 then o.imm.zeroExtend 64 else s.x o.a

/-- `setvl`. -/
def execSetvl (o : SetF) (s : State) : Out :=
  .next (guarded o.gd 12 s (fun s =>
    let c := s.me.setVl (s.setOperand o).toNat
    ((s.setMe c).setX o.d (wd c.vl)).adv 12))

/-- `setvt`. -/
def execSetvt (o : SetF) (s : State) : Out :=
  .next (guarded o.gd 12 s (fun s =>
    let c := s.me.setVt (s.setOperand o)
    ((s.setMe c).setX o.d (wd c.mvl)).adv 12))

/-- `vloop`: an offset of zero or below takes trap 0x11 whatever the guard. -/
def execVloop (o : SetF) (s : State) : Out :=
  .next (operandOk (0 < o.imm.toInt) s (fun s => guarded o.gd 12 s (fun s =>
    let c := s.me
    let exit := c.pc + sext32 o.imm * 4 + 12
    let rem := (s.x o.a).toNat
    let n := min rem c.mvl
    let t : Strip := { act := rem != 0, start := c.pc + 12, exit := exit, rem := rem, done := 0,
                       slen := if rem = 0 then c.strip.slen else n, ix := o.d }
    ((s.setMe { c with strip := t, vl := n }).setX o.d 0).setPc (if rem = 0 then exit else c.pc + 12))))

/-- `vlend`. -/
def execVlend (o : OnlyGuard) (s : State) : Out :=
  .next (guarded o.gd 12 s (fun s =>
    let c := s.me
    let t := c.strip
    if !t.act then s.adv 12
    else
      let done := t.done + t.slen
      let rem := t.rem - t.slen
      let n := min rem c.mvl
      if rem = 0 then (s.setMe { c with strip := { t with act := false, done := done, rem := 0 } }).adv 12
      else ((s.setMe { c with strip := { t with done := done, rem := rem, slen := n }, vl := n }).setX t.ix
        (wd done)).setPc t.start))

/-! ### Integer arithmetic (R373, R374) -/

/-- An integer function of two elements. -/
def intElem (op : IOp) (t : Ty) (a b : Nat) : FRes :=
  let r := intOp op t (readInt t a) (readInt t b)
  ⟨truncI r.1 t.width, r.2⟩

/-- With a vector B. -/
def vecInt (op : IOp) (o : VVV) (s : State) : Out :=
  let w := o.ty.width
  .next (elemwise o.gd o.d w 8 (fun c i => intElem op o.ty (elemOf (c.getV o.a) w i) (elemOf (c.getV o.b) w i)) s)

/-- With a scalar B. -/
def vecIntX (op : IOp) (o : VVX) (s : State) : Out :=
  let w := o.ty.width
  .next (elemwise o.gd o.d w 8 (fun c i => intElem op o.ty (elemOf (c.getV o.a) w i) (c.getX o.b).toNat) s)

/-- With an immediate B. -/
def vecIntI (op : IOp) (o : VVI) (s : State) : Out :=
  let w := o.ty.width
  .next (elemwise o.gd o.d w 12 (fun c i => intElem op o.ty (elemOf (c.getV o.a) w i) (sext32 o.imm).toNat) s)

/-- With one source. -/
def vecInt1 (op : IOp) (o : VV) (s : State) : Out :=
  let w := o.ty.width
  .next (elemwise o.gd o.d w 8 (fun c i => intElem op o.ty (elemOf (c.getV o.a) w i) 0) s)

/-- `vsel`: A where bit i of the predicate is set, else B. -/
def selElem (c : Core) (p : Reg) (i a b : Nat) : FRes := ⟨if (c.getP (predOf p)).getLsbD i then a else b, 0⟩

/-- `vsel` with a vector B. -/
def execVsel (o : VVVP) (s : State) : Out :=
  let w := o.ty.width
  .next (predOk o.c s (elemwise o.gd o.d w 8 (fun c i =>
    selElem c o.c i (elemOf (c.getV o.a) w i) (elemOf (c.getV o.b) w i))))

/-- `vsel` with a scalar B. -/
def execVselScalar (o : VVXP) (s : State) : Out :=
  let w := o.ty.width
  .next (predOk o.c s (elemwise o.gd o.d w 8 (fun c i =>
    selElem c o.c i (elemOf (c.getV o.a) w i) ((c.getX o.b).toNat % 2 ^ w))))

/-- `vsel` with an immediate B. -/
def execVselImm (o : VVIP) (s : State) : Out :=
  let w := o.ty.width
  .next (predOk o.c s (elemwise o.gd o.d w 12 (fun c i =>
    selElem c o.c i (elemOf (c.getV o.a) w i) ((sext32 o.imm).toNat % 2 ^ w))))

/-! ### Floating-point arithmetic (R376) -/

/-- The environment of a vector floating-point instruction of type `t`. -/
def Core.vectorEnv (c : Core) (t : Ty) (rm : Fin 8) : FEnv :=
  { f := fmtOf t, mode := c.vectorMode rm false, fz := c.fz }

/-- With a vector B. (DEDUCED: log 70) -/
def vecFp (op : FOp) (o : FVVV) (s : State) : Out :=
  let w := o.ty.width
  .next (elemwise o.gd o.d w 8 (fun c i =>
    fpOp op (c.vectorEnv o.ty o.rm) (elemOf (c.getV o.a) w i) (elemOf (c.getV o.b) w i) 0) s)

/-- With a scalar B. (DEDUCED: log 70) -/
def vecFpX (op : FOp) (o : FVVX) (s : State) : Out :=
  let w := o.ty.width
  .next (elemwise o.gd o.d w 8 (fun c i =>
    fpOp op (c.vectorEnv o.ty o.rm) (elemOf (c.getV o.a) w i) ((c.getX o.b).toNat % 2 ^ w) 0) s)

/-- A fused function with a vector B. -/
def vecFused (op : FOp) (o : FVVVV) (s : State) : Out :=
  let w := o.ty.width
  .next (elemwise o.gd o.d w 8 (fun c i =>
    fpOp op (c.vectorEnv o.ty o.rm) (elemOf (c.getV o.a) w i) (elemOf (c.getV o.b) w i) (elemOf (c.getV o.c) w i)) s)

/-- A fused function with a scalar B. -/
def vecFusedX (op : FOp) (o : FVVXV) (s : State) : Out :=
  let w := o.ty.width
  .next (elemwise o.gd o.d w 8 (fun c i =>
    fpOp op (c.vectorEnv o.ty o.rm) (elemOf (c.getV o.a) w i) ((c.getX o.b).toNat % 2 ^ w)
      (elemOf (c.getV o.c) w i)) s)

/-- `vfsqrt`. -/
def execVfsqrt (o : FVV) (s : State) : Out :=
  let w := o.ty.width
  .next (elemwise o.gd o.d w 8 (fun c i => fpSqrt (c.vectorEnv o.ty o.rm) (elemOf (c.getV o.a) w i)) s)

/-- A sign operation. -/
def vecSgn (sub : Fin 4) (t : Ty) (d : Reg) (gd : Guard) (a b : Core → Nat → Nat) (s : State) : Out :=
  .next (elemwise gd d t.width 8 (fun c i => ⟨fpSgn sub (fmtOf t) (a c i) (b c i), 0⟩) s)

/-- `vfsgn` with a vector B. -/
def execVfsgn (o : FVSgn) (s : State) : Out :=
  let w := o.ty.width
  vecSgn o.sub o.ty o.d o.gd (fun c i => elemOf (c.getV o.a) w i) (fun c i => elemOf (c.getV o.b) w i) s

/-- `vfsgn` with a scalar B. -/
def execVfsgnScalar (o : FVSgnX) (s : State) : Out :=
  let w := o.ty.width
  vecSgn o.sub o.ty o.d o.gd (fun c i => elemOf (c.getV o.a) w i) (fun c _ => (c.getX o.b).toNat % 2 ^ w) s

/-- `vfabs`. -/
def execVfabs (o : FVV) (s : State) : Out :=
  vecSgn 3 o.ty o.d o.gd (fun c i => elemOf (c.getV o.a) o.ty.width i) (fun _ _ => 0) s

/-- `vfneg`. -/
def execVfneg (o : FVV) (s : State) : Out :=
  vecSgn 2 o.ty o.d o.gd (fun c i => elemOf (c.getV o.a) o.ty.width i) (fun _ _ => 0) s

/-! ### Compares and predicates (R377, R378) -/

/-- Write bits of a predicate register; other bits keep their value. -/
def putBits (p : BitVec 512) (bs : List (Nat × Bool)) : BitVec 512 := bs.foldl (fun p e => setBit p e.1 e.2) p

/-- End an instruction that writes a predicate; `rs` holds each active element's truth and flags. -/
def finishP (d : Reg) (rs : List VRes) (s : State) : State :=
  let c := s.me
  let fl := flagsOf rs
  let p := putBits (c.getP (predOf d)) (rs.map (fun e => (e.i, e.r.bits == 1)))
  arithEnd fl (maskOf c.tren rs) s (((s.setMe (c.setP (predOf d) p)).orFlags fl).adv 8)

/-- One comparison. -/
def cmpElem (cmp : Cmp) (t : Ty) (fz : Bool) (a b : Nat) : FRes :=
  if t.isInt then ⟨bitN (intCmp cmp (readInt t a) (readInt t b)), 0⟩
  else
    let r := fpCmp cmp fz (fmtOf t) a b
    ⟨bitN r.1, r.2⟩

/-- A compare. -/
def vecCmp (cmp : Cmp) (o : VCmp) (s : State) : Out :=
  let w := o.ty.width
  .next (predOk o.d s (fun s => widthOk w s (fun s =>
    let c := s.me
    let b (i : Nat) : Nat := if o.xb then (c.getX o.b).toNat % 2 ^ w else elemOf (c.getV o.b) w i
    finishP o.d ((c.actives o.gd).map (fun i => ⟨i, cmpElem cmp o.ty c.fz (elemOf (c.getV o.a) w i) (b i)⟩)) s)))

/-- `vfclass`. -/
def execVfclass (o : VVX) (s : State) : Out :=
  let w := o.ty.width
  .next (predOk o.d s (fun s => widthOk w s (fun s =>
    let c := s.me
    let want := (c.getX o.b).toNat % 1024
    finishP o.d ((c.actives o.gd).map (fun i =>
      ⟨i, ⟨bitN (fpClass (fmtOf o.ty) (elemOf (c.getV o.a) w i) &&& want != 0), 0⟩⟩)) s)))

/-- A predicate instruction: `f` gives each active bit. -/
def predBits2 (gd : Guard) (d : Reg) (f : Core → Nat → Bool) (s : State) : State :=
  finishP d ((s.me.actives gd).map (fun i => ⟨i, ⟨bitN (f s.me i), 0⟩⟩)) s

/-- With two sources. -/
def predOp (f : Bool → Bool → Bool) (o : PPP) (s : State) : Out :=
  .next (operandOk (o.d.val < 16 && o.a.val < 16 && o.b.val < 16) s (predBits2 o.gd o.d (fun c i =>
    f ((c.getP (predOf o.a)).getLsbD i) ((c.getP (predOf o.b)).getLsbD i))))

/-- With one source. -/
def predOp1 (f : Bool → Bool) (o : PP) (s : State) : Out :=
  .next (operandOk (o.d.val < 16 && o.a.val < 16) s (predBits2 o.gd o.d (fun c i => f ((c.getP (predOf o.a)).getLsbD i))))

/-- `pand`. -/
def execPand (o : PPP) (s : State) : Out := predOp (fun a b => a && b) o s
/-- `por`. -/
def execPor (o : PPP) (s : State) : Out := predOp (fun a b => a || b) o s
/-- `pxor`. -/
def execPxor (o : PPP) (s : State) : Out := predOp (fun a b => a != b) o s
/-- `pandn`. -/
def execPandn (o : PPP) (s : State) : Out := predOp (fun a b => a && !b) o s
/-- `pnot`. -/
def execPnot (o : PP) (s : State) : Out := predOp1 (fun a => !a) o s
/-- `pmov`. -/
def execPmov (o : PP) (s : State) : Out := predOp1 (fun a => a) o s

/-- The active elements whose bit of a predicate is set. -/
def Core.marked (c : Core) (gd : Guard) (p : Reg) : List Nat :=
  (c.actives gd).filter (fun i => (c.getP (predOf p)).getLsbD i)

/-- `pfirst`. -/
def execPfirst (o : PP) (s : State) : Out :=
  .next (predOk o.a s (fun s => (s.setX o.d (wd ((s.me.marked o.gd o.a).headD s.me.vl))).adv 8))

/-- `pcount`. -/
def execPcount (o : PP) (s : State) : Out :=
  .next (predOk o.a s (fun s => (s.setX o.d (wd (s.me.marked o.gd o.a).length)).adv 8))

/-- `pset`. -/
def execPset (o : PP) (s : State) : Out :=
  .next (predOk o.d s (predBits2 o.gd o.d (fun c i => i < (c.getX o.a).toNat)))

/-! ### Permutes (R379) -/

/-- A permute whose active element `i` takes `f i`, none for unchanged. -/
def permute (gd : Guard) (d : Reg) (w : Nat) (f : Core → Nat → Option Nat) (s : State) : Out :=
  .next (widthOk w s (fun s =>
    finishV d w 8 ((s.me.actives gd).filterMap (fun i => (f s.me i).map (fun x => ⟨i, ⟨x, 0⟩⟩))) s))

/-- `vperm`. -/
def execVperm (o : VVV) (s : State) : Out :=
  let w := o.ty.width
  permute o.gd o.d w (fun c i =>
    let j := elemOf (c.getV o.b) w i
    some (if j < c.vl then elemOf (c.getV o.a) w j else 0)) s

/-- `vbcast`. -/
def execVbcast (o : XX) (s : State) : Out :=
  permute o.gd o.d o.ty.width (fun c _ => some ((c.getX o.a).toNat % 2 ^ o.ty.width)) s

/-- `vslideup`. -/
def execVslideup (o : VVX) (s : State) : Out :=
  let w := o.ty.width
  permute o.gd o.d w (fun c i =>
    let n := (c.getX o.b).toNat
    if n ≤ i then some (elemOf (c.getV o.a) w (i - n)) else none) s

/-- `vslidedn`. -/
def execVslidedn (o : VVX) (s : State) : Out :=
  let w := o.ty.width
  permute o.gd o.d w (fun c i =>
    let n := (c.getX o.b).toNat
    some (if i + n < c.vl then elemOf (c.getV o.a) w (i + n) else 0)) s

/-- `vcompress`: the active elements are packed from element 0. -/
def execVcompress (o : VV) (s : State) : Out :=
  let w := o.ty.width
  .next (widthOk w s (fun s =>
    finishV o.d w 8 (((s.me.actives o.gd).zipIdx).map (fun e => ⟨e.2, ⟨elemOf (s.me.getV o.a) w e.1, 0⟩⟩)) s))

/-- `vexpand`: the active elements take the elements from 0 in order. -/
def execVexpand (o : VV) (s : State) : Out :=
  let w := o.ty.width
  .next (widthOk w s (fun s =>
    finishV o.d w 8 (((s.me.actives o.gd).zipIdx).map (fun e => ⟨e.1, ⟨elemOf (s.me.getV o.a) w e.2, 0⟩⟩)) s))

/-- `vextr`: always writes x(d). -/
def execVextr (o : VVX) (s : State) : Out :=
  let w := o.ty.width
  .next (widthOk w s (fun s =>
    let c := s.me
    let n := (c.getX o.b).toNat
    (s.setX o.d (if n < c.vl && c.active o.gd n then extendTy o.ty (elemOf (c.getV o.a) w n) else 0)).adv 8))

/-- `vins`. -/
def execVins (o : XXX) (s : State) : Out :=
  let w := o.ty.width
  .next (widthOk w s (fun s =>
    let c := s.me
    let n := (c.getX o.b).toNat
    finishV o.d w 8 (if n < c.vl && c.active o.gd n then [⟨n, ⟨(c.getX o.a).toNat % 2 ^ w, 0⟩⟩] else []) s))

/-- `vrev`. -/
def execVrev (o : VV) (s : State) : Out :=
  let w := o.ty.width
  permute o.gd o.d w (fun c i => some (elemOf (c.getV o.a) w (c.vl - 1 - i))) s

/-! ### One meaning per row -/

/-- `vadd` with a vector B. -/
def execVadd (o : VVV) (s : State) : Out := vecInt .add o s
/-- `vsub` with a vector B. -/
def execVsub (o : VVV) (s : State) : Out := vecInt .sub o s
/-- `vmul` with a vector B. -/
def execVmul (o : VVV) (s : State) : Out := vecInt .mul o s
/-- `vmulh` with a vector B. -/
def execVmulh (o : VVV) (s : State) : Out := vecInt .mulh o s
/-- `vdiv` with a vector B. -/
def execVdiv (o : VVV) (s : State) : Out := vecInt .div o s
/-- `vrem` with a vector B. -/
def execVrem (o : VVV) (s : State) : Out := vecInt .rem o s
/-- `vand` with a vector B. -/
def execVand (o : VVV) (s : State) : Out := vecInt .and o s
/-- `vor` with a vector B. -/
def execVor (o : VVV) (s : State) : Out := vecInt .or o s
/-- `vxor` with a vector B. -/
def execVxor (o : VVV) (s : State) : Out := vecInt .xor o s
/-- `vandn` with a vector B. -/
def execVandn (o : VVV) (s : State) : Out := vecInt .andn o s
/-- `vsll` with a vector B. -/
def execVsll (o : VVV) (s : State) : Out := vecInt .sll o s
/-- `vsrl` with a vector B. -/
def execVsrl (o : VVV) (s : State) : Out := vecInt .srl o s
/-- `vsra` with a vector B. -/
def execVsra (o : VVV) (s : State) : Out := vecInt .sra o s
/-- `vmin` with a vector B. -/
def execVmin (o : VVV) (s : State) : Out := vecInt .min o s
/-- `vmax` with a vector B. -/
def execVmax (o : VVV) (s : State) : Out := vecInt .max o s
/-- `vadds` with a vector B. -/
def execVadds (o : VVV) (s : State) : Out := vecInt .adds o s
/-- `vsubs` with a vector B. -/
def execVsubs (o : VVV) (s : State) : Out := vecInt .subs o s
/-- `vext` with a vector B. -/
def execVext (o : VVV) (s : State) : Out := vecInt .vext o s
/-- `vadd` with a scalar B. -/
def execVaddScalar (o : VVX) (s : State) : Out := vecIntX .add o s
/-- `vsub` with a scalar B. -/
def execVsubScalar (o : VVX) (s : State) : Out := vecIntX .sub o s
/-- `vmul` with a scalar B. -/
def execVmulScalar (o : VVX) (s : State) : Out := vecIntX .mul o s
/-- `vmulh` with a scalar B. -/
def execVmulhScalar (o : VVX) (s : State) : Out := vecIntX .mulh o s
/-- `vdiv` with a scalar B. -/
def execVdivScalar (o : VVX) (s : State) : Out := vecIntX .div o s
/-- `vrem` with a scalar B. -/
def execVremScalar (o : VVX) (s : State) : Out := vecIntX .rem o s
/-- `vand` with a scalar B. -/
def execVandScalar (o : VVX) (s : State) : Out := vecIntX .and o s
/-- `vor` with a scalar B. -/
def execVorScalar (o : VVX) (s : State) : Out := vecIntX .or o s
/-- `vxor` with a scalar B. -/
def execVxorScalar (o : VVX) (s : State) : Out := vecIntX .xor o s
/-- `vandn` with a scalar B. -/
def execVandnScalar (o : VVX) (s : State) : Out := vecIntX .andn o s
/-- `vsll` with a scalar B. -/
def execVsllScalar (o : VVX) (s : State) : Out := vecIntX .sll o s
/-- `vsrl` with a scalar B. -/
def execVsrlScalar (o : VVX) (s : State) : Out := vecIntX .srl o s
/-- `vsra` with a scalar B. -/
def execVsraScalar (o : VVX) (s : State) : Out := vecIntX .sra o s
/-- `vmin` with a scalar B. -/
def execVminScalar (o : VVX) (s : State) : Out := vecIntX .min o s
/-- `vmax` with a scalar B. -/
def execVmaxScalar (o : VVX) (s : State) : Out := vecIntX .max o s
/-- `vadds` with a scalar B. -/
def execVaddsScalar (o : VVX) (s : State) : Out := vecIntX .adds o s
/-- `vsubs` with a scalar B. -/
def execVsubsScalar (o : VVX) (s : State) : Out := vecIntX .subs o s
/-- `vext` with a scalar B. -/
def execVextScalar (o : VVX) (s : State) : Out := vecIntX .vext o s
/-- `vadd` with an immediate B. -/
def execVaddImm (o : VVI) (s : State) : Out := vecIntI .add o s
/-- `vsub` with an immediate B. -/
def execVsubImm (o : VVI) (s : State) : Out := vecIntI .sub o s
/-- `vmul` with an immediate B. -/
def execVmulImm (o : VVI) (s : State) : Out := vecIntI .mul o s
/-- `vmulh` with an immediate B. -/
def execVmulhImm (o : VVI) (s : State) : Out := vecIntI .mulh o s
/-- `vdiv` with an immediate B. -/
def execVdivImm (o : VVI) (s : State) : Out := vecIntI .div o s
/-- `vrem` with an immediate B. -/
def execVremImm (o : VVI) (s : State) : Out := vecIntI .rem o s
/-- `vand` with an immediate B. -/
def execVandImm (o : VVI) (s : State) : Out := vecIntI .and o s
/-- `vor` with an immediate B. -/
def execVorImm (o : VVI) (s : State) : Out := vecIntI .or o s
/-- `vxor` with an immediate B. -/
def execVxorImm (o : VVI) (s : State) : Out := vecIntI .xor o s
/-- `vandn` with an immediate B. -/
def execVandnImm (o : VVI) (s : State) : Out := vecIntI .andn o s
/-- `vsll` with an immediate B. -/
def execVsllImm (o : VVI) (s : State) : Out := vecIntI .sll o s
/-- `vsrl` with an immediate B. -/
def execVsrlImm (o : VVI) (s : State) : Out := vecIntI .srl o s
/-- `vsra` with an immediate B. -/
def execVsraImm (o : VVI) (s : State) : Out := vecIntI .sra o s
/-- `vmin` with an immediate B. -/
def execVminImm (o : VVI) (s : State) : Out := vecIntI .min o s
/-- `vmax` with an immediate B. -/
def execVmaxImm (o : VVI) (s : State) : Out := vecIntI .max o s
/-- `vadds` with an immediate B. -/
def execVaddsImm (o : VVI) (s : State) : Out := vecIntI .adds o s
/-- `vsubs` with an immediate B. -/
def execVsubsImm (o : VVI) (s : State) : Out := vecIntI .subs o s
/-- `vext` with an immediate B. -/
def execVextImm (o : VVI) (s : State) : Out := vecIntI .vext o s
/-- `vabs`. -/
def execVabs (o : VV) (s : State) : Out := vecInt1 .abs o s
/-- `vneg`. -/
def execVneg (o : VV) (s : State) : Out := vecInt1 .neg o s
/-- `vmov`. -/
def execVmov (o : VV) (s : State) : Out := vecInt1 .mov o s
/-- `vfadd` with a vector B. -/
def execVfadd (o : FVVV) (s : State) : Out := vecFp .add o s
/-- `vfsub` with a vector B. -/
def execVfsub (o : FVVV) (s : State) : Out := vecFp .sub o s
/-- `vfmul` with a vector B. -/
def execVfmul (o : FVVV) (s : State) : Out := vecFp .mul o s
/-- `vfdiv` with a vector B. -/
def execVfdiv (o : FVVV) (s : State) : Out := vecFp .div o s
/-- `vfmin` with a vector B. -/
def execVfmin (o : FVVV) (s : State) : Out := vecFp .min o s
/-- `vfmax` with a vector B. -/
def execVfmax (o : FVVV) (s : State) : Out := vecFp .max o s
/-- `vfadd` with a scalar B. -/
def execVfaddScalar (o : FVVX) (s : State) : Out := vecFpX .add o s
/-- `vfsub` with a scalar B. -/
def execVfsubScalar (o : FVVX) (s : State) : Out := vecFpX .sub o s
/-- `vfmul` with a scalar B. -/
def execVfmulScalar (o : FVVX) (s : State) : Out := vecFpX .mul o s
/-- `vfdiv` with a scalar B. -/
def execVfdivScalar (o : FVVX) (s : State) : Out := vecFpX .div o s
/-- `vfmin` with a scalar B. -/
def execVfminScalar (o : FVVX) (s : State) : Out := vecFpX .min o s
/-- `vfmax` with a scalar B. -/
def execVfmaxScalar (o : FVVX) (s : State) : Out := vecFpX .max o s
/-- `vfma` with a vector B. -/
def execVfma (o : FVVVV) (s : State) : Out := vecFused .fma o s
/-- `vfma` with a scalar B. -/
def execVfmaScalar (o : FVVXV) (s : State) : Out := vecFusedX .fma o s
/-- `vfms` with a vector B. -/
def execVfms (o : FVVVV) (s : State) : Out := vecFused .fms o s
/-- `vfms` with a scalar B. -/
def execVfmsScalar (o : FVVXV) (s : State) : Out := vecFusedX .fms o s
/-- `vfnma` with a vector B. -/
def execVfnma (o : FVVVV) (s : State) : Out := vecFused .fnma o s
/-- `vfnma` with a scalar B. -/
def execVfnmaScalar (o : FVVXV) (s : State) : Out := vecFusedX .fnma o s
/-- `vcmp.eq`. -/
def execVcmpEq (o : VCmp) (s : State) : Out := vecCmp .eq o s
/-- `vcmp.ne`. -/
def execVcmpNe (o : VCmp) (s : State) : Out := vecCmp .ne o s
/-- `vcmp.lt`. -/
def execVcmpLt (o : VCmp) (s : State) : Out := vecCmp .lt o s
/-- `vcmp.le`. -/
def execVcmpLe (o : VCmp) (s : State) : Out := vecCmp .le o s
/-- `vcmp.gt`. -/
def execVcmpGt (o : VCmp) (s : State) : Out := vecCmp .gt o s
/-- `vcmp.ge`. -/
def execVcmpGe (o : VCmp) (s : State) : Out := vecCmp .ge o s
/-- `vcmp.un`. -/
def execVcmpUn (o : VCmp) (s : State) : Out := vecCmp .un o s

end Sys2Proof.Machine
end

