-- ==== Sys2Proof/Machine/Convert.lean ====
section
/-! DEFINITION. Vector conversions and quantisation (R267–R270, R385–R388). -/

namespace Sys2Proof.Machine

open Sys2Proof

/-! ### Block formats (R267–R269) -/

/-- The value of a scale E8M0, none for NaN: a power of two as a fraction. -/
def e8m0 (x : Nat) : Option (Nat × Nat) := if x = 255 then none else some (2 ^ x, 2 ^ 127)

/-- Multiply a value by a positive or zero fraction, keeping NaN and infinity. -/
def FVal.times (v : FVal) (q : Nat × Nat) : FVal :=
  match v with
  | .fin s n d => .fin s (n * q.1) (d * q.2)
  | v => v

/-- The value of an MX element with its block's scale (R268). -/
def mxValue (v : FVal) (x : Nat) : FVal :=
  match e8m0 x with
  | none => .nan false
  | some q => v.times q

/-- The value of an FB4 element with its block and band scales (R269). -/
def fb4Value (v : FVal) (sc band : Nat) : FVal :=
  match (fmtOf .bf16).value band with
  | .fin bs bn bd =>
      (match e3m5.value sc with
       | .fin _ n d =>
           let t := v.times (n * bn, d * bd)
           if bs then t.negate else t
       | _ => .nan false)
  | _ => .nan false

/-- Byte `i` of a vector register. -/
def byteOf (v : BitVec 4096) (i : Nat) : Nat := elemOf v 8 i

/-! ### `vcvt`, `vcvti`, `vicvt` -/

/-- The widths of a conversion: the wider must be that of `vtype` (R362). (DEDUCED: log 98) -/
def cvtWidthOk (a b : Ty) (s : State) (k : State → State) : State := widthOk (max a.width b.width) s k

/-- The environment of a conversion of element `i` with source bits `b` (R276). -/
def Core.cvtEnv (c : Core) (t : Ty) (rm : Fin 8) (narrow : Bool) (i b : Nat) : FEnv :=
  { f := fmtOf t, mode := c.vectorMode rm narrow, fz := c.fz, rnd := c.random i b }

/-- An element of a block-format source as a value (R386). -/
def Core.blockSource (c : Core) (o : VCvt) (i b : Nat) : FVal :=
  let v := (fmtOf o.src).value (flushSrc c.fz (fmtOf o.src) b)
  let scales := c.getV (Fin.ofNat 64 (o.a.val + 1))
  match o.src with
  | .fb4 => fb4Value v (byteOf scales (i / 8)) ((c.getX o.b).toNat % 65536)
  | _ => mxValue v (byteOf scales (i / 32))

/-- One element of `vcvt`: a NaN becomes the default NaN whatever the types (R266). -/
def vcvtElem (o : VCvt) (c : Core) (i : Nat) : FRes :=
  let b := elemOf (c.getV o.a) o.src.width i
  if o.src.isInt then cvtII o.ty o.sat (readInt o.src b)
  else
    let e := c.cvtEnv o.ty o.rm (RndUse.ofCvt o.src o.ty == .narrowing) i b
    if o.src.isBlock then cvtVal e (c.blockSource o i b)
    else cvtVal e ((fmtOf o.src).value (flushSrc c.fz (fmtOf o.src) b))

/-- Run a conversion over the active elements. -/
def convert (gd : Guard) (d : Reg) (t src : Ty) (f : Core → Nat → FRes) (s : State) : State :=
  cvtWidthOk t src s (fun s => finishV d t.width 8 ((s.me.actives gd).map (fun i => ⟨i, f s.me i⟩)) s)

/-- `vcvt`: a block source is an even register, its scales in the next. (DEDUCED: log 98) -/
def execVcvt (o : VCvt) (s : State) : Out :=
  .next (operandOk (!o.src.isBlock || o.a.val % 2 == 0) s (convert o.gd o.d o.ty o.src (vcvtElem o)))

/-- `vcvti` (R286). -/
def execVcvti (o : VCvt2) (s : State) : Out :=
  .next (convert o.gd o.d o.ty o.src (fun c i =>
    let f := fmtOf o.src
    cvtFI o.ty (c.vectorMode o.rm false) (f.value (flushSrc c.fz f (elemOf (c.getV o.a) o.src.width i)))) s)

/-- `vicvt` (R287). -/
def execVicvt (o : VCvt2) (s : State) : Out :=
  .next (convert o.gd o.d o.ty o.src (fun c i =>
    cvtIF (c.vectorEnv o.ty o.rm) (readInt o.src (elemOf (c.getV o.a) o.src.width i))) s)

/-! ### `vquant` (R270, R387) -/

/-- What a block gives: its scale byte, the flags of choosing it, and its elements. -/
structure QBlock where
  scale : Nat
  fl : FlagSet
  elems : List VRes
  deriving DecidableEq, Repr

/-- The larger of two magnitudes. -/
def maxMagn (a b : Nat × Nat) : Nat × Nat := if a.1 * b.2 ≤ b.1 * a.2 then b else a

/-- The largest magnitude of the finite values. -/
def amax (vs : List FVal) : Nat × Nat :=
  vs.foldl (fun m v => match v with
    | .fin _ n d => maxMagn m (n, d)
    | _ => m) (0, 1)

/-- A NaN or an infinity. -/
def FVal.isSpecial : FVal → Bool
  | .fin _ _ _ => false
  | _ => true

/-- An MX block: `xs` holds its active elements with their source bits. -/
def mxBlock (c : Core) (o : VQnt) (xs : List (Nat × Nat × FVal)) : QBlock :=
  if xs.any (fun x => x.2.2.isSpecial) then
    { scale := 255, fl := fInv, elems := xs.map (fun x => ⟨x.1, ⟨0, 0⟩⟩) }
  else
    let m := amax (xs.map (fun x => x.2.2))
    let emax : Int := if o.ty = .mx8 then 8 else 2
    let e : Int := if m.1 = 0 then 0 else min 254 (max 0 (ilog m.1 m.2 - emax + 127))
    let q := 2 ^ e.toNat
    { scale := e.toNat, fl := 0,
      elems := xs.map (fun x => ⟨x.1,
        match x.2.2 with
        | .fin s n d => (c.cvtEnv o.ty o.rm true x.1 x.2.1).fin s (n * 2 ^ 127) (d * q)
        | _ => ⟨0, 0⟩⟩) }

/-- An FB4 block with a finite band scale of sign `bs` and magnitude `bn / bd`. (DEDUCED: log 72) -/
def fb4Block (c : Core) (o : VQnt) (bs : Bool) (bn bd : Nat) (xs : List (Nat × Nat × FVal)) : QBlock :=
  let m := amax (xs.map (fun x => x.2.2))
  let sc : FRes := if bn = 0 then ⟨0, 0⟩ else e3m5.round 4 0 false (m.1 * bd) (m.2 * 6 * bn)
  let sv : Nat × Nat := match e3m5.value sc.bits with
    | .fin _ n d => (n, d)
    | _ => (0, 1)
  let neg := bs && bn != 0
  let f := fmtOf .fb4
  { scale := sc.bits, fl := sc.fl,
    elems := xs.map (fun x => ⟨x.1,
      match x.2.2 with
      | .nan _ => ⟨0, fInv⟩
      | .inf s => ⟨f.withSign (s != neg) f.maxMag, fInv⟩
      | .fin s n d =>
          if sv.1 = 0 then ⟨f.withSign s 0, 0⟩
          else (c.cvtEnv o.ty o.rm true x.1 x.2.1).fin (s != neg) (n * sv.2 * bd) (d * sv.1 * bn)⟩) }

/-- One block of `vquant`. (DEDUCED: log 72) -/
def quantBlock (c : Core) (o : VQnt) (xs : List (Nat × Nat × FVal)) : QBlock :=
  if o.ty = .fb4 then
    match (fmtOf .bf16).value ((c.getX o.b).toNat % 65536) with
    | .fin bs n d => fb4Block c o bs n d xs
    | _ => { scale := 0, fl := fInv, elems := xs.map (fun x => ⟨x.1, ⟨0, 0⟩⟩) }
  else mxBlock c o xs

/-- `vquant`: elements into v(d), scale bytes into v(d + 1). A flag of choosing a scale marks the block's lowest active
element (R231). -/
def execVquant (o : VQnt) (s : State) : Out :=
  .next (operandOk (o.d.val % 2 == 0) s (fun s => cvtWidthOk o.ty o.src s (fun s =>
    let c := s.me
    let size := if o.ty = .fb4 then 8 else 32
    let f := fmtOf o.src
    let act := c.actives o.gd
    let blocks := ((List.range (c.vl / size + 1)).map (fun k =>
        (k, (act.filter (fun i => i / size == k)).map (fun i =>
          let b := elemOf (c.getV o.a) o.src.width i
          (i, b, f.value (flushSrc c.fz f b)))))).filter (fun e => !e.2.isEmpty)
    let qs := blocks.map (fun e => (e.1, quantBlock c o e.2))
    let elems := qs.flatMap (fun q => q.2.elems)
    let marks : List VRes := qs.map (fun q => ⟨(q.2.elems.headD ⟨0, ⟨0, 0⟩⟩).i, ⟨0, q.2.fl⟩⟩)
    let fl := flagsOf (elems ++ marks)
    let c' := c.setV o.d (putElems (c.getV o.d) o.ty.width elems)
    let d' : Reg := Fin.ofNat 64 (o.d.val + 1)
    let c' := c'.setV d' (qs.foldl (fun v q => setElem v 8 q.1 q.2.scale) (c'.getV d'))
    arithEnd fl (maskOf c.tren (elems ++ marks)) s (((s.setMe c').orFlags fl).adv 8))))

end Sys2Proof.Machine
end

