-- ==== Sys2Proof/Machine/Reduce.lean ====
section
/-! DEFINITION. Reductions (R290, R381–R383) and segmented scans and reductions (R384). -/

namespace Sys2Proof.Machine

open Sys2Proof

/-- Operations of the reductions. -/
inductive RedOp where
  | sum | max | min | and | or | xor
  deriving DecidableEq, Repr

/-- What a reduction combines with. -/
structure RedEnv where
  op : RedOp
  ty : Ty
  env : FEnv
  deriving DecidableEq, Repr

/-- One step. -/
def RedEnv.step (e : RedEnv) (a b : Nat) : FRes :=
  let w := e.ty.width
  if e.ty.isFp then
    match e.op with
    | .max => fpMinMax true e.env a b
    | .min => fpMinMax false e.env a b
    | _ => fpAdd e.env a b
  else
    match e.op with
    | .sum => ⟨(a + b) % 2 ^ w, 0⟩
    | .max => ⟨if readInt e.ty a ≤ readInt e.ty b then b else a, 0⟩
    | .min => ⟨if readInt e.ty a ≤ readInt e.ty b then a else b, 0⟩
    | .and => ⟨a &&& b, 0⟩
    | .or => ⟨a ||| b, 0⟩
    | .xor => ⟨a ^^^ b, 0⟩

/-- The identity (R382). -/
def RedEnv.identity (e : RedEnv) : Nat :=
  let w := e.ty.width
  if e.ty.isFp then
    match e.op with
    | .max => e.env.f.withSign true e.env.f.infMag
    | .min => e.env.f.infMag
    | _ => e.env.f.withSign true 0
  else
    match e.op with
    | .max => truncI (intLo e.ty) w
    | .min => truncI (intHi e.ty) w
    | .and => 2 ^ w - 1
    | _ => 0

/-- Continue a chain of steps, gathering flags. -/
def RedEnv.more (e : RedEnv) (r : FRes) (x : Nat) : FRes :=
  let t := e.step r.bits x
  ⟨t.bits, r.fl ||| t.fl⟩

/-- The ordered form of R290. -/
def RedEnv.ordered (e : RedEnv) (init : Nat) (xs : List Nat) : FRes := xs.foldl e.more ⟨init, 0⟩

/-- One level of the tree: neighbours combined in pairs. -/
def RedEnv.pairs (e : RedEnv) : List FRes → List FRes
  | a :: b :: rest =>
      let t := e.step a.bits b.bits
      ⟨t.bits, a.fl ||| b.fl ||| t.fl⟩ :: RedEnv.pairs e rest
  | l => l

/-- The tree form on a list whose length is a power of two, at most `2 ^ fuel`. (DEDUCED: log 73) -/
def RedEnv.tree (e : RedEnv) : Nat → List FRes → FRes
  | 0, l => l.headD ⟨e.identity, 0⟩
  | n + 1, l => if l.length ≤ 1 then l.headD ⟨e.identity, 0⟩ else RedEnv.tree e n (e.pairs l)

/-- Smallest power of two that is at least `n` and 1, up to `2 ^ fuel`. -/
def pow2Above : Nat → Nat → Nat
  | 0, _ => 1
  | fuel + 1, n => if n ≤ 1 then 1 else 2 * pow2Above fuel ((n + 1) / 2)

/-- Leaves of the tree: active elements, and the identity elsewhere. -/
def RedEnv.leaves (e : RedEnv) (xs : List (Option Nat)) : List FRes :=
  let n := pow2Above 10 xs.length
  (xs.map (fun x => ⟨x.getD e.identity, 0⟩)) ++ List.replicate (n - xs.length) ⟨e.identity, 0⟩

/-- The environment of a reduction instruction. -/
def Core.redEnv (c : Core) (op : RedOp) (t : Ty) (rm : Fin 8) : RedEnv := { op := op, ty := t, env := c.vectorEnv t rm }

/-- A reduction (R382). (DEDUCED: log 73) -/
def reduce (ordered : Bool) (op : RedOp) (o : VRed) (s : State) : Out :=
  let w := o.ty.width
  .next (widthOk w s (fun s =>
    let c := s.me
    let e := c.redEnv op o.ty o.rm
    let init := (c.getX o.b).toNat % 2 ^ w
    let act := c.actives o.gd
    let r : FRes :=
      if act.isEmpty then ⟨init, 0⟩
      else if ordered then e.ordered init (act.map (elemOf (c.getV o.a) w))
      else
        let l := (List.range c.vl).map (fun i => if c.active o.gd i then some (elemOf (c.getV o.a) w i) else none)
        let a := e.tree 10 (e.leaves l)
        let t := e.step init a.bits
        ⟨t.bits, a.fl ||| t.fl⟩
    finishX o.d (extendTy o.ty r.bits) r.fl s))
where
  /-- Write the scalar result; only bit 0 of `tmask` can be set (R231). -/
  finishX (d : Reg) (v : Word) (fl : FlagSet) (s : State) : State := arithEnd fl 1 s (((s.setX d v).orFlags fl).adv 8)

/-- `vredo.sum`. -/
def execVredoSum (o : VRed) (s : State) : Out := reduce true .sum o s
/-- `vredt.sum`. -/
def execVredtSum (o : VRed) (s : State) : Out := reduce false .sum o s
/-- `vred.max`. -/
def execVredMax (o : VRed) (s : State) : Out := reduce false .max o s
/-- `vred.min`. -/
def execVredMin (o : VRed) (s : State) : Out := reduce false .min o s
/-- `vred.and`. -/
def execVredAnd (o : VRed) (s : State) : Out := reduce false .and o s
/-- `vred.or`. -/
def execVredOr (o : VRed) (s : State) : Out := reduce false .or o s
/-- `vred.xor`. -/
def execVredXor (o : VRed) (s : State) : Out := reduce false .xor o s

/-- A finite value times `n / p`. -/
def FVal.scaleBy (v : FVal) (n p : Nat) : FVal :=
  match v with
  | .fin s a d => .fin s (a * n) (d * p)
  | v => v

/-- The rescaled reductions (R383). -/
def rescaled (mean : Bool) (o : VRedS) (s : State) : Out :=
  let w := o.ty.width
  .next (widthOk w s (fun s =>
    let c := s.me
    let e := c.redEnv .sum o.ty o.rm
    let valid := c.getX o.c
    let act := c.actives o.gd
    let present := act.filter (fun i => valid.getLsbD (8 * o.grp.val + w * i / 512))
    let n := act.length
    let p := present.length
    let init := (c.getX o.b).toNat % 2 ^ w
    let sum := e.ordered e.identity (present.map (elemOf (c.getV o.a) w))
    let v := e.env.f.value sum.bits
    let r : FRes :=
      if p = 0 then ⟨init, 0⟩
      else if mean then
        match v.scaleBy 1 p with
        | .fin sg a d => e.env.fin sg a d
        | v => cvtVal e.env v
      else (({} : Acc).add (e.env.src init) |>.add (v.scaleBy n p)).round e.env
    let fl := if p = 0 then 0 else sum.fl ||| r.fl
    arithEnd fl 1 s (((s.setX o.d (wd r.bits)).orFlags fl).adv 8)))

/-- `vreds.sum`. -/
def execVredsSum (o : VRedS) (s : State) : Out := rescaled false o s
/-- `vreds.mean`. -/
def execVredsMean (o : VRedS) (s : State) : Out := rescaled true o s

/-! ### Segmented (R384) -/

/-- A step of a segmented instruction: the segment it belongs to, its element and the running result. -/
structure Seg where
  k : Nat
  i : Nat
  r : FRes
  deriving DecidableEq, Repr

/-- The running results at each active element, oldest first; `cur` is the segment number and value so far. -/
def RedEnv.segments (e : RedEnv) (val : Nat → Nat) (flag : Nat → Bool) : Option (Nat × Nat) → List Nat → List Seg
  | _, [] => []
  | cur, i :: is =>
      let (k, r) : Nat × FRes := match cur with
        | none => (0, e.step e.identity (val i))
        | some (k, x) => if flag i then (k + 1, e.step e.identity (val i)) else (k, e.step x (val i))
      ⟨k, i, r⟩ :: RedEnv.segments e val flag (some (k, r.bits)) is

/-- The last result of each segment. -/
def lastOfSegs : List Seg → List Seg
  | [] => []
  | [a] => [a]
  | a :: b :: rest => if a.k = b.k then lastOfSegs (b :: rest) else a :: lastOfSegs (b :: rest)

/-- A segmented instruction: flags belong to the elements whose steps set them (R231). -/
def segmented (scan : Bool) (op : RedOp) (o : VRed) (s : State) : Out :=
  let w := o.ty.width
  .next (predOk o.b s (fun s => widthOk w s (fun s =>
    let c := s.me
    let e := c.redEnv op o.ty o.rm
    let p := c.getP (predOf o.b)
    let segs := e.segments (elemOf (c.getV o.a) w) p.getLsbD none (c.actives o.gd)
    let steps : List VRes := segs.map (fun g => ⟨g.i, g.r⟩)
    let writes : List VRes := if scan then steps else (lastOfSegs segs).map (fun g => ⟨g.k, g.r⟩)
    let fl := flagsOf steps
    arithEnd fl (maskOf c.tren steps) s
      (((s.setMe (c.setV o.d (putElems (c.getV o.d) w writes))).orFlags fl).adv 8))))

/-- `vsscan.sum`. -/
def execVsscanSum (o : VRed) (s : State) : Out := segmented true .sum o s
/-- `vsscan.max`. -/
def execVsscanMax (o : VRed) (s : State) : Out := segmented true .max o s
/-- `vsred.sum`. -/
def execVsredSum (o : VRed) (s : State) : Out := segmented false .sum o s
/-- `vsred.max`. -/
def execVsredMax (o : VRed) (s : State) : Out := segmented false .max o s

end Sys2Proof.Machine
end

