-- ==== Sys2Proof/Machine/Copies.lean ====
section
/-! DEFINITION. Copies, folds and prefetch (R64, R194–R196, R428–R433): `cpy`, `cpyv`, `drain`, `pref`, `qwait`, the copy
harts, and what they report (R56, R234). -/

namespace Sys2Proof.Machine

open Sys2Proof

/-! ### The hart as a party -/

/-- The hart that serves a channel (R194), as a party of its own past the cores. -/
def hartOf (core ch : Nat) : Nat := 4096 + 8 * (core / 128) + (core / 16 % 8 + 2 * ch) % 8

/-- The hart's accesses for a copy. -/
def Copy.who (c : Copy) : Who := { core := hartOf c.core c.ch, key := c.key, thread := true, hart := true, via := c.core }

/-- A hart keeps no line between copies: what it holds is written back and dropped. -/
def State.clearHart (s : State) (h : Nat) : State :=
  let s := ((s.core h).l1.map (·.1)).foldl (fun s ln => s.evictN h ln) s
  { s with cores := Table.erase s.cores h }

/-- What one unit of a copy answers. -/
inductive CopyRes where
  | ok (c : Copy) (s : State)
  | wait (c : Copy) (s : State)
  | flt (f : AccFault) (s : State)
  | poison (s : State)
  deriving DecidableEq, Repr

/-- Go on with the value of a hart's access. -/
def Res.hart (r : Res) (c : Copy) (k : Nat → State → CopyRes) : CopyRes :=
  match r with
  | .ok v s => k v s
  | .flt f s => .flt f s
  | .wait _ s => .wait c s
  | .err s => .poison s

/-! ### Addresses -/

/-- A window address of another device (R64). -/
def State.away (s : State) (va : Nat) : Bool := va / 2 ^ 56 % 256 == 0xFE && !s.ownDev (fld va 44 12)

/-- The node of the home or of the owning core of an address (R430). -/
def State.nodeFor (s : State) (w : Who) (va : Nat) : Nat :=
  if va / 2 ^ 56 % 256 = 0xFE then nodeOf (fld va 32 12)
  else match (s.lookup w.core w.key va).2 with
    | .ok l =>
        let pa := l.frame + (va - l.page)
        let h := s.home l pa
        if 4096 ≤ h then gatewayNode (h - 4096) pa else nodeOf h
    | .error _ => nodeOf w.via

/-- Blocks of a copy. -/
def Copy.blocks (c : Copy) : Nat := (c.len + 63) / 64

/-- Bytes of a copy's block that a block really has. -/
def Copy.blockLen (c : Copy) (b : Nat) : Nat := min 64 (c.len - 64 * b)

/-- The destination address of a block of a copy. -/
def Copy.blockDst (c : Copy) (b : Nat) : Nat := c.dst.toNat + (if c.fold ≤ 1 then 64 * b else 0)

/-- The nodes between which a block of a sand copy travels (R430); the registers of a `cpyv` are at the kicking core's node. -/
def State.blockNodes (s : State) (c : Copy) (b : Nat) : Nat × Nat :=
  let src := c.src.toNat + 64 * b
  let dst := c.blockDst b
  match c.regs with
  | some (_, _, true) => (nodeOf c.core, s.nodeFor c.who dst)
  | some (_, _, false) => (s.nodeFor c.who src, nodeOf c.core)
  | none => (s.nodeFor c.who src, s.nodeFor c.who dst)

/-- Blocks of a copy that travel in one packet: the first, their number, and the nodes. -/
structure SandRun where
  first : Nat
  count : Nat
  src : Nat
  dst : Nat
  deriving DecidableEq, Repr

/-- Add a block to the runs of later blocks: to the first of them when it stands just before it, between the same nodes and on
the same page (`same`), and that run has fewer than 64. -/
def addBlock (b : Nat) (e : Nat × Nat) (same : Bool) : List SandRun → List SandRun
  | r :: rs =>
      if same && r.first = b + 1 && r.src = e.1 && r.dst = e.2 && r.count < 64 then { r with first := b, count := r.count + 1 } :: rs
      else { first := b, count := 1, src := e.1, dst := e.2 } :: r :: rs
  | [] => [{ first := b, count := 1, src := e.1, dst := e.2 }]

/-- The runs of a sand copy's blocks that cross a link (R430). (DEDUCED: log 63) -/
def State.sandRuns (s : State) (c : Copy) : List SandRun :=
  (List.range c.blocks).foldr (fun b rs =>
    let e := s.blockNodes c b
    if e.1 = e.2 then rs else addBlock b e (c.blockDst b / 4096 == c.blockDst (b + 1) / 4096) rs) []

/-- The address that a packet's head carries (R44): a window address, or the physical one of what is accessed. -/
def State.wireAddr (s : State) (w : Who) (va : Nat) : Nat :=
  if 2 ≤ va / 2 ^ 56 % 256 then va
  else match (s.lookup w.core w.key va).2 with
    | .ok l => l.frame + (va - l.page)
    | .error _ => va

/-- A packet of a copy for an address (R44, R45, R64). -/
def State.copyPacket (s : State) (c : Copy) (kind src dst first va size : Nat) (payload : List Byte) (away : Option (Nat × Nat)) : Pkt :=
  let a := s.wireAddr c.who va
  { pid := 0, src := src, dst := dst, lane := laneOf a, kind := kind, key := c.key, seq := 0, score := c.core, sdev := 0,
    dcore := if va / 2 ^ 56 % 256 = 0xFE then fld va 32 12 else 16 * dst, buf := 0, mseq := 0, tag := 0, payload := payload,
    sand := c.sand, sdl := c.sdl, size := size, addr := a, away := away, hart := some (c.core, c.ch, first), pc := c.pc,
    launch := c.launch }

/-- The validity mask of a copy in 64-bit words (R261 kind 0x07). -/
def maskWords (blocks : Nat) (lost : List Nat) : List Nat :=
  (List.range ((blocks + 63) / 64)).map (fun w =>
    ((List.range 64).map (fun i => if 64 * w + i < blocks ∧ !lost.contains (64 * w + i) then 2 ^ i else 0)).sum)

/-- The blocks that a validity mask marks lost. -/
def maskLost (blocks : Nat) (ws : List Nat) : List Nat :=
  (List.range blocks).filter (fun b => !natBit (ws.getD (b / 64) 0) (b % 64))

/-- A byte of the source is lost. -/
def Copy.lostAt (c : Copy) (o : Nat) : Bool := (c.lost.getD []).contains (o / 64)

/-! ### Units of a copy -/

/-- Send a packet of a copy to another device, through the node of its UALink port, and wait for the answer (R42, R61, R71). What no
scratchpad has, and a write to a context area, is refused (R63, R240). -/
def Copy.sendAway (c : Copy) (kind acc first va size : Nat) (payload : List Byte) (s : State) : CopyRes :=
  let here := if kind = 8 && c.regs.isNone then s.nodeFor c.who (c.src.toNat + 64 * first) else nodeOf c.core
  if (if kind = 8 then 0x40000 else 0x60000) < va % 2 ^ 32 + size then .flt { cause := 7, acc := acc, va := va } s
  else match s.portFor c.core (fld va 44 12) va with
  | none => .flt { cause := 10, acc := acc, va := va } s
  | some u =>
      if !s.memberN here c.key then .flt { cause := 9, acc := acc, va := va } (s.dropAt here c.key)
      else .wait { c with flying := 1 } (s.inject (s.copyPacket c kind here (ualNode u) first va size payload (some (fld va 44 12, u))))

/-- Ask another device for 256 bytes of the source (R71). -/
def Copy.fetch (c : Copy) (i : Nat) (s : State) : CopyRes :=
  if 0 < c.flying then .wait c s
  else c.sendAway 1 5 (4 * i) (c.src.toNat + 256 * i) (min 256 (c.len - 256 * i)) [] s

/-- Read bytes of the source; a get from another device asks for pieces of 256 bytes (R64, R71). -/
def Copy.read (c : Copy) (va n : Nat) (s : State) (k : Nat → State → CopyRes) : CopyRes :=
  if s.away va then
    let o := va - c.src.toNat
    let i := o / 256
    let j := (o + n - 1) / 256
    match Table.get? c.got i, Table.get? c.got j with
    | some a, some b => k (ofBytes (((if i = j then a else a ++ b).drop (o % 256)).take n)) s
    | none, _ => c.fetch i s
    | some _, none => c.fetch j s
  else (s.loadAt c.who va n false).hart c k

/-- Write bytes of the destination; a put to another device is done when its write has been answered (R64, R71, R221). -/
def Copy.write (c : Copy) (va n v o : Nat) (s : State) (k : Copy → State → CopyRes) : CopyRes :=
  if s.away va then
    if c.put then k { c with put := false } s
    else if 0 < c.flying then .wait c s
    else c.sendAway 8 6 (o / 64) va n (bytesOf n v) s
  else (s.storeAt c.who va n v).hart c (fun _ s => k c s)

/-- Zero the bytes of lost blocks. -/
def Copy.sift (c : Copy) (o n v : Nat) : Nat :=
  ofBytes ((List.range n).map (fun i => if c.lostAt (o + i) then 0 else BitVec.ofNat 8 (fld v (8 * i) 8)))

/-- The parts of a plain copy, by the alignment of the destination (R430); a put moves up to 256 bytes at a time. (DEDUCED: log 53) -/
def State.copyParts (s : State) (c : Copy) : List (Nat × Nat × Nat) :=
  if s.away c.dst.toNat then
    (List.range ((c.len + 255) / 256)).map (fun i => (c.dst.toNat + 256 * i, 256 * i, min 256 (c.len - 256 * i)))
  else partsOf c.dst.toNat c.len

/-- One part of a plain copy. -/
def Copy.part (c : Copy) (p : Nat × Nat × Nat) (s : State) : CopyRes :=
  c.read (c.src.toNat + p.2.1) p.2.2 s (fun v s =>
    c.write p.1 p.2.2 (c.sift p.2.1 p.2.2 v) p.2.1 s (fun c s => .ok { c with pos := c.pos + 1 } s))

/-- Bytes of an element of a fold. -/
def Copy.esz (c : Copy) : Nat := cfmtBytes c.op

/-- Elements a fold names. -/
def Copy.elems (c : Copy) : Nat := c.len / c.esz

/-- Combine the next source element into the running value. -/
def Copy.gather (c : Copy) (i : Nat) (s : State) : CopyRes :=
  if c.lostAt (c.esz * i) then .ok { c with pos := c.pos + 1 } s
  else c.read (c.src.toNat + c.esz * i) c.esz s (fun v s =>
    .ok { c with pos := c.pos + 1, accum := combine c.op c.accum v, present := c.present + 1 } s)

/-- One element of an elementwise fold. -/
def Copy.element (c : Copy) (i : Nat) (s : State) : CopyRes :=
  if c.lostAt (c.esz * i) then .ok { c with pos := c.pos + 1 } s
  else
    c.read (c.src.toNat + c.esz * i) c.esz s (fun v s =>
      c.read (c.dst.toNat + c.esz * i) c.esz s (fun d s =>
        c.write (c.dst.toNat + c.esz * i) c.esz (combine c.op d v) 0 s (fun c s =>
          .ok { c with pos := c.pos + 1, present := c.present + 1 } s)))

/-- One level of the pairwise tree. -/
def foldPairs (op : Nat) : List Nat → List Nat
  | a :: b :: rest => combine op a b :: foldPairs op rest
  | l => l

/-- The pairwise tree on a list whose length is a power of two. (DEDUCED: log 63) -/
def foldTree (op : Nat) : Nat → List Nat → Nat
  | 0, l => l.headD (cfmtId op)
  | n + 1, l => if l.length ≤ 1 then l.headD (cfmtId op) else foldTree op n (foldPairs op l)

/-- Read the elements of a strip, lost ones as the identity. -/
def Copy.readStrip (c : Copy) : List Nat → List Nat → State → (List Nat → State → CopyRes) → CopyRes
  | [], vs, s, k => k vs.reverse s
  | i :: is, vs, s, k =>
      if c.lostAt (c.esz * i) then Copy.readStrip c is (cfmtId c.op :: vs) s k
      else c.read (c.src.toNat + c.esz * i) c.esz s (fun v s => Copy.readStrip c is (v :: vs) s k)

/-- One strip of an unordered reduction (R195): 4 KiB of elements reduced by the tree, and combined into the
destination. Which strip arrives next is free. (DEDUCED: log 63) -/
def Copy.strip (c : Copy) (s : State) : CopyRes :=
  match c.strips[Config.freeNat s.free % c.strips.length]? with
  | none => .ok { c with pos := c.pos + 1 } s
  | some t =>
      let per := 4096 / c.esz
      let is := (List.range (min per (c.elems - per * t))).map (fun i => per * t + i)
      c.readStrip is [] s.drew (fun vs s =>
        let n := pow2Above 10 vs.length
        let r := combine c.op (cfmtId c.op) (foldTree c.op 10 (vs ++ List.replicate (n - vs.length) (cfmtId c.op)))
        let p := (is.filter (fun i => !c.lostAt (c.esz * i))).length
        c.read c.dst.toNat c.esz s (fun d s =>
          c.write c.dst.toNat c.esz (combine c.op d r) 0 s (fun c s =>
            .ok { c with pos := c.pos + 1, present := c.present + p, strips := c.strips.filter (· != t) } s)))

/-- Round a signed quotient to the nearest integer, ties to even. -/
def roundDiv (n : Int) (d : Nat) : Int :=
  let q := n.fdiv d
  let r := 2 * (n - q * d)
  if r < d then q else if (d : Int) < r then q + 1 else if q % 2 = 0 then q else q + 1

/-- The scaled reduction's last step (R195): dest + s × N / P, computed exactly and rounded once. -/
def scaledSum (op dest sum n p : Nat) : Nat :=
  let t := cfmtOf op
  if p = 0 then dest
  else if op < 2 then
    let f := fmtOf t
    ((({} : Acc).add (f.value dest)).add ((f.value sum).scaleBy n p) |>.round (plainEnv f)).bits
  else if op < 4 then
    let si := cond (op == 2) Ty.i64 Ty.i32
    truncI (roundDiv (readInt si dest * (p : Int) + readInt si sum * (n : Int)) p) si.width
  else combine op dest sum

/-- The last unit of a reduction: the destination is written. (DEDUCED: log 63) -/
def Copy.settle (c : Copy) (s : State) : CopyRes :=
  let fin (v : Nat) (s : State) : CopyRes :=
    c.write c.dst.toNat c.esz v 0 s (fun c s => .ok { c with pos := c.pos + 1 } s)
  if c.fold = 2 then fin c.accum s
  else if c.present = 0 then .ok { c with pos := c.pos + 1 } s
  else c.read c.dst.toNat c.esz s (fun d s => fin (scaledSum c.op d c.accum c.elems c.present) s)

/-- One group of 1024 bits of a `cpyv` (R431); a thread that has ended takes none. (DEDUCED: log 65) -/
def Copy.group (c : Copy) (first : Nat) (out : Bool) (i : Nat) (s : State) : CopyRes :=
  let a := if out then c.dst.toNat + 128 * i else c.src.toNat + 128 * i
  if out then
    let v := ((c.vals.getD (i / 4) 0).extractLsb' (1024 * (i % 4)) 1024).toNat
    c.write a 128 (c.sift (128 * i) 128 v) (128 * i) s (fun c s => .ok { c with pos := c.pos + 1 } s)
  else
    c.read a 128 s (fun v s =>
      let k := s.core c.core
      let r : Reg := Fin.ofNat 64 (first + i / 4)
      let w := setFld (k.getV r) (1024 * (i % 4)) 1024 (c.sift (128 * i) 128 v)
      .ok { c with pos := c.pos + 1 } (if c.orphan then s else s.setCore c.core (k.setV r w)))

/-- Units of a copy before its count word. -/
def State.copyUnits (s : State) (c : Copy) : Nat :=
  match c.regs with
  | some (_, nr, _) => 4 * nr
  | none =>
      match c.fold with
      | 0 => (s.copyParts c).length
      | 1 => c.elems
      | 3 => (c.len + 4095) / 4096
      | _ => c.elems + 2

/-- One unit of a copy. -/
def Copy.unit (c : Copy) (s : State) : CopyRes :=
  match c.regs with
  | some (first, _, out) => c.group first out c.pos s
  | none =>
      match c.fold with
      | 0 => (match (s.copyParts c)[c.pos]? with
        | some p => c.part p s
        | none => .ok { c with pos := c.pos + 1 } s)
      | 1 => c.element c.pos s
      | 3 => c.strip s
      | _ =>
          if c.pos = 0 then
            (if c.fold = 2 then c.read c.dst.toNat c.esz s (fun d s => .ok { c with pos := 1, accum := d } s)
             else .ok { c with pos := 1, accum := cfmtId c.op } s)
          else if c.pos ≤ c.elems then c.gather (c.pos - 1) s
          else c.settle s

/-- How a copy ends. -/
inductive CopyEnd where
  | done (c : Copy) (s : State)
  | wait (c : Copy) (s : State)
  | flt (f : AccFault) (s : State)
  | poison (s : State)
  deriving DecidableEq, Repr

/-- Bytes present of a plain copy, elements of a fold. -/
def Copy.count (c : Copy) : Nat :=
  if c.fold = 0 then c.len - ((c.lost.getD []).map c.blockLen).sum else c.present

/-- Run what is left of a copy, its count word last (R430). -/
def Copy.run (c : Copy) (s : State) : Nat → CopyEnd
  | 0 =>
      if c.cnt = 0 then .done c s
      else (match { c with sand := false }.write c.cnt.toNat 8 c.count 0 s (fun c s => .ok c s) with
        | .ok _ s => .done c s
        | .wait d s => .wait { d with sand := c.sand } s
        | .flt f s => .flt f s
        | .poison s => .poison s)
  | n + 1 =>
      match c.unit s with
      | .ok c s => Copy.run c s n
      | .wait c s => .wait c s
      | .flt f s => .flt f s
      | .poison s => .poison s

/-! ### Kick and completion -/

/-- Remove the first copy of a channel. -/
def dropCopy (core ch : Nat) : List Copy → List Copy
  | [] => []
  | c :: cs => if c.core == core && c.ch == ch then cs else c :: dropCopy core ch cs

/-- The packets of a channel's copy that are still outstanding no longer concern it. -/
def State.forgetHart (s : State) (c : Copy) : State :=
  let mine (p : Pkt) : Bool := match p.hart with
    | some (core, ch, _) => core == c.core && ch == c.ch
    | none => false
  if s.fab.pkts.any mine then
    { s with fab := { s.fab with pkts := s.fab.pkts.map (fun p => if mine p then { p with hart := some (c.core, 4, 0) } else p) } }
  else s

/-- The transfers of a copy have ended: its completion is due. The vector registers of a `cpyv` are free again, and a stop of the thread
that waited for them goes on (R124 step 3, R431). -/
def State.performed (s : State) (c : Copy) : State :=
  let s := (s.clearHart (hartOf c.core c.ch)).forgetHart c
  let s := { s with copies := putCopy { c with performed := true } s.copies }
  let s := if c.regs.isSome then s.settled (c.core / 16) else s
  s.after (.copyCompletion (Fin.ofNat 4096 c.core) (Fin.ofNat 4 c.ch))

/-- A copy that stops becomes sticky at the kicking core (R194, R234), with the further bits given. -/
def State.copyStops (s : State) (c : Copy) (more : Nat) : State :=
  s.stick c.core c.key (BitVec.ofNat 8 (2 + 16 * 2 ^ c.ch + more))

/-- A copy's fault: a record and the sticky fault (R194), a denial's among them (R56); poisoned data leave no record. (DEDUCED: log 64) -/
def State.copyFault (s : State) (c : Copy) (f : Option AccFault) : State :=
  match f with
  | some f => (s.record (c.core / 128) c.key c.core c.pc { f with elem := 0xFFFF }).copyStops c (if f.cause = 9 then 1 else 0)
  | none => s.copyStops c 4

/-- The blocks that a sand copy has lost, as captured (R126, R219, R260, R261). (DEDUCED: log 47) -/
def State.captureLost (s : State) (c : Copy) (lost : List Nat) : List Nat × State :=
  let ws := maskWords c.blocks lost
  let r := s.input c.core 0x07 (8 * (2 + ws.length)) (c.dst.toNat :: c.blocks :: ws)
  (maskLost c.blocks (r.1.drop 2), r.2)

/-- Send the blocks of a sand copy that cross a link (R430), or deny them at a source's port (R54, R55). The packets stand for the
blocks: the hart reads and writes those that arrive. (DEDUCED: log 63) -/
def State.sendBlocks (s : State) (c : Copy) : List SandRun → Copy × State
  | [] => (c, s)
  | r :: rs =>
      if !s.memberN r.src c.key then ({ c with deny := some (5, c.src.toNat + 64 * r.first) }, s.dropAt r.src c.key)
      else
        let len := min (64 * r.count) (c.len - 64 * r.first)
        let p := s.copyPacket c 8 r.src r.dst r.first (c.blockDst r.first) 0 (List.replicate len 0) none
        State.sendBlocks (s.inject p) { c with flying := c.flying + 1 } rs

/-- Begin or go on with a copy: the blocks of a sand copy travel first, and those that have not arrived when every packet of it has
closed are lost (R51, R430). The hart reads the kick with an acquire (R214). The answer says whether it may go on. -/
def State.beginCopy (s : State) (c : Copy) : Bool × Copy × State :=
  let far := s.away c.src.toNat || s.away c.dst.toNat
  match c.lost with
  | some l => (true, { c with lost := some (if s.replaying c.core then l else l ++ c.gone), gone := [] }, s)
  | none =>
      let c := { c with strips := List.range ((c.len + 4095) / 4096) }
      let s := if c.sent then s else s.softInval (hartOf c.core c.ch)
      if !c.sand || (far && !s.replaying c.core) then (true, { c with lost := some [] }, s)
      else if far || c.sent then
        let r := s.captureLost c c.gone
        (true, { c with lost := some r.1, gone := [] }, r.2)
      else
        let r := s.sendBlocks { c with sent := true } (s.sandRuns c)
        if r.1.flying = 0 && r.1.deny.isNone then
          let q := r.2.captureLost r.1 []
          (true, { r.1 with lost := some q.1 }, q.2)
        else (false, r.1, r.2)

/-- A finished sand copy with another device records what it has lost. -/
def State.endCopy (s : State) (c : Copy) : State :=
  if c.sand && (s.away c.src.toNat || s.away c.dst.toNat) && !s.replaying c.core then (s.captureLost c (c.lost.getD [])).2 else s

/-- The scratchpad addresses that a copy writes, its count word among them, whose owner does not permit the kicking
cluster (R64). (DEDUCED: log 64) -/
def State.notPermitted (s : State) (c : Copy) : List Nat :=
  let toPad := match c.regs with
    | some (_, nr, out) => if out && nr != 0 then [c.dst.toNat] else []
    | none => if c.len = 0 then [] else [c.dst.toNat]
  (toPad ++ (if c.cnt = 0 then [] else [c.cnt.toNat])).filter (fun va =>
    va / 2 ^ 56 % 256 == 0xFE && !s.away va && !(s.core (fld va 32 12)).cpmask.getLsbD (c.core / 128 % 32))

/-- The hart performs what is left of a copy, as far as it gets. -/
def State.goCopy (s : State) (c : Copy) : State :=
  match s.beginCopy c with
  | (false, c, s) =>
      let s := { s with copies := putCopy c s.copies }
      if c.deny.isSome then s.after (.copyKick (Fin.ofNat 4096 c.core) (Fin.ofNat 4 c.ch) false) else s
  | (true, c, s) =>
      match c.run s (s.copyUnits c - c.pos) with
      | .done d s => (s.endCopy d).performed d
      | .wait d s => { s with copies := putCopy d s.copies }
      | .flt f s => (s.copyFault c (some f)).performed c
      | .poison s => (s.copyFault c none).performed c

/-- COPY_KICK (R194), once the boot has made the copy harts ready (R28): the hart performs the first copy of the channel, or goes on
with it. A denied packet stops it (R56), and so does `parity`, an error in the hart's registers or buffers (R252). (DEDUCED: log 53) -/
def execCopyKick (core : Fin 4096) (ch : Fin 4) (parity : Bool) (s : State) : Out :=
  .next (match s.copyAt core.val ch.val with
    | none => s
    | some c =>
        if c.performed || s.dev.bstep < 4 then s
        else if parity then (s.copyStops c 0).performed c
        else match c.deny with
        | some (acc, va) => (s.copyFault c (some { cause := 9, acc := acc, va := va })).performed c
        | none =>
            if 0 < c.flying then s
            else match if c.lost.isNone then s.notPermitted c else [] with
            | va :: _ => (s.copyFault c (some { cause := 9, acc := 6, va := va })).performed c
            | [] => s.goCopy c)

/-- COPY_COMPLETION (R194): the channel's completion count advances, and what waits for it is told. -/
def execCopyCompletion (core : Fin 4096) (ch : Fin 4) (s : State) : Out :=
  .next (match s.copyAt core.val ch.val with
    | none => s
    | some c =>
        if !c.performed then s
        else
          let k := s.core core.val
          let k := { k with completed := k.completed.set ch.val (k.completed.get ch + 1) ch.isLt }
          let s := { s.setCore core.val k with copies := dropCopy core.val ch.val s.copies }
          let s := (s.drainNote c.key).kickCopies
          let o := coreAt (core.val / 16) (s.ring (core.val / 16)).head
          match k.wait, (s.core o).wait with
          | .drain _, _ => s.after (.drainComplete core)
          | _, .exit _ => s.after (.drainComplete (Fin.ofNat 4096 o))
          | _, _ => s)

/-! ### The instructions -/

/-- The checks of `cpy` at its kick (R429). -/
def cpyOk (o : CpyF) (s : State) : Bool :=
  let l := (s.x o.c).toNat
  let cnt := (s.x (Fin.ofNat 64 (o.c.val + 1))).toNat
  let fold := fld l 37 3
  let op := fld l 40 3
  let len := fld l 0 32
  let a := (s.x o.a).toNat
  let b := (s.x o.b).toNat
  o.d.val < 4 && o.c.val % 2 == 0 && fold < 5 && fld l 43 5 == 0 && fld l 32 5 == 0 && cnt % 8 == 0 &&
    (if fold = 0 then op == 0
     else len % cfmtBytes op == 0 && a % cfmtBytes op == 0 && b % cfmtBytes op == 0 && !s.away a) &&
    !(s.away a && s.away b)

/-- The kick: a store-release of the operands to the hart (R214). -/
def kick (c : Copy) (ch : Fin 4) (sc : Nat) (s : State) (k : State → State) : State :=
  releaseAll sc s (fun s =>
    let m := s.me
    let s := s.setMe { m with issued := m.issued.set ch.val (m.issued.get ch + 1) ch.isLt }
    k (({ s with copies := s.copies ++ [c] }).after (.copyKick (Fin.ofNat 4096 s.cur) ch false)))

/-- `cpy` (R430). -/
def execCpy (o : CpyF) (s : State) : Out :=
  let sc := o.sc.val
  .next (threadOnly s (fun s => operandOk (cpyOk o s) s (fun s => noRegion s (fun s => stickyIf (0 < sc) s (fun s =>
    guarded o.gd 8 s (fun s => commitPoint s (fun s =>
      let l := (s.x o.c).toNat
      let c : Copy :=
        { core := s.cur, ch := o.d.val, dst := s.x o.a, src := s.x o.b, len := fld l 0 32, fold := fld l 37 3,
          op := fld l 40 3, cnt := s.x (Fin.ofNat 64 (o.c.val + 1)), sand := o.sand, sdl := max 1 (fld l 48 16), key := s.key,
          pc := s.pc, launch := s.myLaunch }
      kick c (Fin.ofNat 4 o.d.val) sc s (fun s => s.adv 8))))))))

/-- The forms of `cpyv`: cb stands in the outward form only (R306), whose type and scope are then read. (DEDUCED: log 69) -/
def cpyvForm (o : CpyvF) (out : Bool) (s : State) (k : State → State) : State :=
  if !o.cb then k s
  else if !out then illegal 2 s
  else if o.ty.val != 0 then illegal 8 s
  else if badScope o.sc then illegal 7 s
  else k s

/-- `cpyv` (R431). A form that the encoding does not allow is illegal before its other fields are (R306). (DEDUCED: log 65) -/
def execCpyv (o : CpyvF) (s : State) : Out :=
  let sc := o.sc.val
  let w := (s.x o.c).toNat
  let nr := fld w 0 4
  let out := natBit w 8
  let ok := o.d.val < 4 && 1 ≤ nr && nr ≤ 8 && o.b.val + nr ≤ 64 && fld w 4 4 == 0 && fld w 9 55 == 0
  .next (cpyvForm o out s (fun s => threadOnly s (fun s =>
    operandOk ok s (fun s => noRegion s (fun s => stickyIf (0 < sc) s (fun s =>
      guarded o.gd 8 s (fun s => commitPoint s (fun s =>
        let vals := if out then (List.range nr).map (fun i => s.me.getV (Fin.ofNat 64 (o.b.val + i))) else []
        let a := s.x o.a
        let c : Copy :=
          { core := s.cur, ch := o.d.val, dst := if out then a else 0, src := if out then 0 else a, len := 512 * nr,
            sand := o.sand, regs := some (o.b.val, nr, out), vals := vals, key := s.key, pc := s.pc,
            launch := s.myLaunch }
        kick c (Fin.ofNat 4 o.d.val) sc s (fun s => s.adv 8)))))))))

/-- The copies of a channel have completed. -/
def Core.drained (c : Core) (ch : Fin 4) : Bool := c.issued.get ch == c.completed.get ch

/-- `drain` (R432): its return is an acquire of the channel's copies. -/
def execDrain (o : DrainF) (s : State) : Out :=
  .next (threadOnly s (fun s => operandOk (o.a.val < 4) s (fun s => sticky s (fun s => guarded o.gd 8 s (fun s =>
    commitPoint s (fun s =>
      if s.me.drained (Fin.ofNat 4 o.a.val) then (s.softAcquire s.cur).adv 8 else s.waitFor (.drain o)))))))

/-- A copy that the thread of a core's ring has kicked is not complete. -/
def State.copiesOf (s : State) (c : Nat) : Bool := s.copies.any (fun x => x.core / 16 == c / 16 && x.key == s.keyOf c)

/-! ### Prefetch (R196, R433) -/

/-- The token word. -/
def tokenWord (pend err : Bool) (lines : Nat) : Word := wd (bitN pend * 2 ^ 63 + bitN err * 2 ^ 62 + min lines 0xFFFFFFFF)

/-- `pref` (R433): it waits while its token is pending. -/
def execPref (o : TriF) (s : State) : Out :=
  let q : Fin 8 := Fin.ofNat 8 o.d.val
  .next (operandOk (o.d.val < 8) s (fun s => guarded o.gd 8 s (fun s => commitIf true s (fun s =>
    let k := s.me
    if (k.q.get q).getLsbD 63 then s.waitFor (.token q)
    else
      let len := s.x o.b
      let s := s.setMe { k with q := k.q.set q.val (tokenWord (len != 0) false 0) q.isLt }
      if len = 0 then s.adv 8
      else
        let p : Pref := { core := s.cur, q := q, start := s.x o.a, len := len, key := s.key }
        (({ s with prefs := s.prefs ++ [p] }).after (.prefComplete (Fin.ofNat 4096 s.cur) q)).adv 8))))

/-- `qwait` (R433). -/
def execQwait (o : DuoF) (s : State) : Out :=
  let q : Fin 8 := Fin.ofNat 8 o.a.val
  .next (operandOk (o.a.val < 8) s (fun s => guarded o.gd 8 s (fun s => commitIf true s (fun s =>
    let w := s.me.q.get q
    if w.getLsbD 63 then s.waitFor (.token q) else (s.setX o.d w).adv 8))))

/-- A line is made resident, or skipped: it faults, is of the io class or the host tier, or is backed by nothing. None: its walk waits
for the host. -/
def State.prefLine (s : State) (p : Pref) (va : Nat) : Option Bool × State :=
  if 2 ≤ va / 2 ^ 56 % 256 then (some false, s)
  else match s.place { core := p.core, key := p.key, thread := p.key != 0 } 0 va 1 with
    | (s, .ok (.mem a)) => (some (a.tier != 3), s)
    | (s, .ok (.held _)) => (none, s)
    | (s, _) => (some false, s)

/-- The lines of a prefetch, in order: the token word they leave, none while one of them waits. -/
def State.prefLines (s : State) (p : Pref) : Nat → Nat → Nat → Bool → State × Option Word
  | 0, _, lines, err => (s, some (tokenWord false err lines))
  | n + 1, ln, lines, err =>
      match s.prefLine p (128 * ln % 2 ^ 64) with
      | (none, s) => (s, none)
      | (some got, s) => State.prefLines s p n (ln + 1) (if got then lines + 1 else lines) (err || !got)

/-- PREF_COMPLETE (R196): every line of the prefetch is resident or skipped, and the token's pend clears. -/
def execPrefComplete (core : Fin 4096) (q : Fin 8) (s : State) : Out :=
  .next (match s.prefs.find? (fun p => p.core == core.val && p.q == q) with
    | none => s
    | some p =>
        let a := p.start.toNat
        let n := (a + p.len.toNat - 1) / 128 - a / 128 + 1
        let r := s.prefLines p n (a / 128) 0 false
        match r.2 with
        | none => r.1
        | some w =>
            let k := r.1.core core.val
            let s := r.1.setCore core.val { k with q := k.q.set q.val w q.isLt }
            { s with prefs := s.prefs.erase p })

end Sys2Proof.Machine
end

