-- ==== Sys2Proof/Machine/ErrorRows.lean ====
section
/-! DEFINITION. The rows of hardware errors (R244–R252): failed residue checks, detected errors, memory errors, and the
instruction cache. -/

namespace Sys2Proof.Machine

open Sys2Proof

/-- Withdraw a core (R245): code 0x0211 is written once, the thread aborts, and the ring takes no launch until cold reset;
`lane` is 64 for a scalar failure. (DEDUCED: log 78) -/
def State.withdraw (s : State) (c lane : Nat) : State :=
  let s := s.log (entry (s.keyOf c) c 0x0211 0 4 0 [wd lane])
  let s := match (s.ring (c / 16)).thread with
    | some t => s.endLaunch t.job t.record 2
    | none => s
  let s := s.setCore c { s.core c with withdrawn := true }
  s.setRing (c / 16) { s.ring (c / 16) with withdrawn := true }

/-- LANE_RESIDUE_FAILURE (R244, R245, R247): the lane is retired. Its elements are recomputed, so the registers hold what
the failed instruction gives, unless a later instruction has read the failed result: then that instruction meets a
detected error. (DEDUCED: log 78) -/
def execLaneResidueFailure (f : LaneFail) (s : State) : Out :=
  let c := f.core % 4096
  let k := s.core c
  .next (
    if k.lret.getLsbD f.lane.val || k.withdrawn then s
    else
      let lret := setBit k.lret f.lane.val true
      let s := s.setCore c { k with lret := lret }
      let s := s.log (entry (s.keyOf c) c 0x0210 0 1 0 [wd f.lane.val])
      if tooFew lret then s.withdraw c f.lane.val
      else
        match f.reader with
        | none => s
        | some pc => s.detected c pc)
where
  /-- A lane cluster has fewer than four working lanes. -/
  tooFew (lret : BitVec 64) : Bool :=
    (List.range 4).any (fun i => 12 < (bitsSet (lret.extractLsb' (16 * i) 16)).length)

/-- An instruction of a core may meet an error: a thread or the handler runs there. -/
def State.runsOn (s : State) (c : Nat) : Bool :=
  let g := s.ring (c / 16)
  (s.core c).handler || (g.chunkAt (slotOf c)).isSome || (g.thread.isSome && g.head == slotOf c)

/-- SCALAR_RESIDUE_FAILURE (R246): the first is a detected error, the second withdraws the core. (DEDUCED: log 78) -/
def execScalarResidueFailure (core : Fin 4096) (pc : BitVec 64) (s : State) : Out :=
  let c := core.val
  let k := s.core c
  .next (
    if k.withdrawn then s
    else
      let s := s.setCore c { k with scalarFails := k.scalarFails + 1 }
      if 1 ≤ k.scalarFails then s.withdraw c 64
      else if s.runsOn c then s.detected c pc
      else s)

/-- DETECTED_ERROR (R249); while the core saves a context it is a save fault (R242). -/
def execDetectedError (core : Fin 4096) (e : ErrorAt) (s : State) : Out :=
  let c := core.val
  .next (
    if (s.core c).stopping.isSome then s.saveFault c e.pc (saveError (s.core c).ctxbase.toNat)
    else if s.runsOn c then s.detected c e.pc e.again
    else s)

/-- MEMORY_UNCORRECTABLE_ERROR (R251): the line is poisoned; the entry's detail is the address of the instruction whose access
read it (R263). -/
def execMemoryUncorrectableError (e : MemError) (s : State) : Out :=
  .next (({ s with poison := Table.put s.poison (e.pa / 128) 0 }).log (entry 0 0xFFF 0x0220 3 2 e.pa [e.pc]))

/-- CORRECTABLE_ERROR (R250, R263). -/
def execCorrectableError (e : MemError) (s : State) : Out :=
  .next (s.log (entry 0 0xFFF 0x0221 3 1 e.pa [e.pc]))

/-- ICACHE_PARITY_ERROR (R252): the line is invalidated, and the next fetch takes it again. -/
def execIcacheParityError (core : Fin 4096) (line : Nat) (s : State) : Out :=
  let c := core.val
  let k := s.core c
  .next (
    if k.icache.any (fun e => e.1 % 2 ^ 45 == line) then
      (s.setCore c { k with icache := k.icache.filter (fun e => e.1 % 2 ^ 45 != line) }).log
        (entry (s.keyOf c) c 0x0222 0 1 (128 * line) [k.pc])
    else s)

/-- PAD_WORD (R293): four bytes that do nothing. -/
def execPadWord (s : State) : Out := .next (s.adv 4)

end Sys2Proof.Machine
end

