-- ==== Sys2Proof/Machine/ScalarMemory.lean ====
section
/-! DEFINITION. Scalar loads, stores, contributions and atomics (R342–R353). -/

namespace Sys2Proof.Machine

open Sys2Proof

/-! ### Synchronising accesses (R345) -/

/-- The release write has been performed: its line's tag names it (R223). A version that the oldest chunk wrote by a wide release
is committed at once; one written at core scope holds the tag until its bytes are committed. (DEDUCED: log 56) -/
def State.released (s : State) (w : Who) (va sc : Nat) : State :=
  match s.syncLine w va with
  | none => s
  | some a =>
      match s.line a.core a.ln with
      | none => s.setTag w va sc
      | some l =>
          if l.st == .n then s.setTag w va sc
          else if sc = 0 then
            s.putLine a.core a.ln { l with
              rel := some { key := w.key, ring := w.core / 16, scope := 0, line := va % 2 ^ 57 / 128 } }
          else ((s.writeVersion a.core a.ln l).leaveLine a.core a.ln false).setTag w va sc

/-- A load that may be an acquire (R343). (DEDUCED: log 30) -/
def State.loadSync (s : State) (w : Who) (va n : Nat) (acq fr : Bool) (sc : Nat) : Res :=
  if !acq then s.loadAt w va n fr
  else match s.place w 0 va n with
    | (_, .error _) => s.loadAt w va n fr
    | (t, .ok (.held x)) => .wait x t
    | (_, .ok p) =>
        let b := s.acquireBegin w va sc
        (b.2.loadAt w va n (fr || 0 < sc)).bind (fun v s =>
          let s := s.acquireEnd w sc b.1
          let io := match p with
            | .io _ _ => true
            | _ => false
          if (sc = 6 ∨ sc = 7) ∧ !io then
            let r := s.input w.core 0x04 (if n = 16 then 16 else 8) [v % 2 ^ 64, v / 2 ^ 64]
            .ok (r.1.getD 0 0 + 2 ^ 64 * r.1.getD 1 0) r.2
          else .ok v s)

/-- A store that may be a release (R343, R68). (DEDUCED: log 30) -/
def State.storeSync (s : State) (w : Who) (va n v : Nat) (rel : Bool) (sc : Nat) : Res :=
  if !rel then s.storeAt w va n v
  else match s.place w 1 va n with
    | (_, .error _) => s.storeAt w va n v
    | (t, .ok (.held x)) => .wait x t
    | (_, .ok _) =>
        let s := s.release w va sc
        if !s.reached sc || (0 < sc && s.unacked w.core sc) then .wait .release s
        else (s.storeAt w va n v).bind (fun _ s => .ok 0 (s.released w va sc))

/-- An atomic with its ordering options (R352): one that writes with a release sets the line's tag, one that writes
without clears it, and one that does not write leaves it. (DEDUCED: log 30) -/
def State.atomicSync (s : State) (w : Who) (va n : Nat) (acq rel : Bool) (sc : Nat) (f : Nat → Option Nat) : Res :=
  match s.place w 2 va n with
  | (_, .error _) => s.atomicAt w va n f
  | (t, .ok (.held x)) => .wait x t
  | (_, .ok _) =>
      let s := if rel then s.release w va sc else s
      if rel && (!s.reached sc || (0 < sc && s.unacked w.core sc)) then .wait .release s
      else
        let b := if acq then s.acquireBegin w va sc else (true, s)
        (b.2.atomicAt w va n f).bind (fun old s =>
          let s := if rel && (f old).isSome then s.released w va sc else s
          .ok old (if acq then s.acquireEnd w sc b.1 else s))

/-! ### Loads and stores -/

/-- A scalar load of `n` bytes (R343); `fin` writes the destination. -/
def scalarLoad (gd : Guard) (a : Reg) (imm : BitVec 32) (n : Nat) (acq fr : Bool) (sc : Fin 16)
    (fin : Nat → State → State) (s : State) : State :=
  let wide := acq && 0 < sc.val
  let va := s.ea a imm
  wideSync wide s (fun s => s.regionOk [va] n false (fun s => guarded gd 12 s (fun s =>
    s.screen [va] n false acq (fun s => commitIf wide s (fun s =>
      (s.loadSync (s.whoWith { acq := acq, fresh := fr, sc := sc.val }) va n acq fr sc.val).finish (fun v s => (fin v s).adv 12))))))

/-- A scalar store of `n` bytes (R343). -/
def scalarStore (gd : Guard) (a : Reg) (imm : BitVec 32) (n v : Nat) (rel : Bool) (sc : Fin 16) (s : State) : State :=
  let wide := rel && 0 < sc.val
  let va := s.ea a imm
  wideSync wide s (fun s => s.regionOk [va] n true (fun s => stickyIf wide s (fun s => guarded gd 12 s (fun s =>
    s.screen [va] n false rel (fun s => commitIf wide s (fun s =>
      (s.storeSync (s.whoWith { rel := rel, sc := sc.val }) va n v rel sc.val).finish (fun _ s => s.adv 12)))))))

/-- `ld`. -/
def execLd (o : LdF) (s : State) : Out :=
  .next (scalarLoad o.gd o.a o.imm (o.ty.width / 8) o.acq o.fr o.sc (fun v s => s.setX o.d (extendTy o.ty v)) s)

/-- `ldp`: an odd destination takes trap 0x11. -/
def execLdp (o : LdpF) (s : State) : Out :=
  .next (operandOk (o.d.val % 2 == 0) s (scalarLoad o.gd o.a o.imm 16 o.acq o.fr o.sc (fun v s =>
    (s.setX o.d (wd v)).setX (Fin.ofNat 64 (o.d.val + 1)) (wd (v / 2 ^ 64)))))

/-- `st`. -/
def execSt (o : StF) (s : State) : Out :=
  .next (scalarStore o.gd o.a o.imm (o.ty.width / 8) ((s.x o.b).toNat % 2 ^ o.ty.width) o.rel o.sc s)

/-- `stp`: an odd data register takes trap 0x11. -/
def execStp (o : StpF) (s : State) : Out :=
  .next (operandOk (o.b.val % 2 == 0) s (scalarStore o.gd o.a o.imm 16
    ((s.x (Fin.ofNat 64 (o.b.val + 1))).toNat * 2 ^ 64 + (s.x o.b).toNat) o.rel o.sc))

/-- `fst` (R348). -/
def execFst (o : FstF) (s : State) : Out :=
  .next (noRegion s (fun s => guarded o.gd 12 s (fun s =>
    let va := s.ea o.a o.imm
    let n := o.ty.width / 8
    if va % n != 0 then alignTrap (wd va) s
    else entryFree s [va] (fun s => (s.contributeAt s.who va n ((s.x o.b).toNat % 2 ^ o.ty.width) o.ty).finish (fun _ s => s.adv 12)))))

/-! ### Atomics (R351, R352) -/

/-- An atomic at x(a), which its packet describes by `q`: `f` gives the new value from the old one, none for no write. -/
def atomic (gd : Guard) (d a : Reg) (q : AtomOp) (acq rel : Bool) (sc : Fin 16) (f : Nat → Option Nat) (s : State) : Out :=
  let va := (s.x a).toNat
  let n := q.ty.width / 8
  .next (wideSync (!s.ownPad va) s (fun s => stickyIf (rel && 0 < sc.val) s (fun s => guarded gd 8 s (fun s =>
    if va % n != 0 then alignTrap (wd va) s
    else entryFree s [va] (fun s => commitIf true s (fun s =>
      (s.atomicSync (s.whoAtomic q acq rel sc.val) va n acq rel sc.val f).finish (fun old s => (s.setX d (extendTy q.ty old)).adv 8)))))))

/-- The low bits of an atomic's register operand. -/
def State.amoB (s : State) (r : Reg) (t : Ty) : Nat := (s.x r).toNat % 2 ^ t.width

/-- An atomic of two operands; `op` is its code in a packet, as R426 numbers the operations. -/
def amo (op : Nat) (f : Nat → Nat → Nat) (o : AmoF) (s : State) : Out :=
  atomic o.gd o.d o.a { ty := o.ty, op := op, b := s.amoB o.b o.ty, b2 := 0 } o.acq o.rel o.sc (fun old => some (f old (s.amoB o.b o.ty) % 2 ^ o.ty.width)) s

/-- `amoadd`. -/
def execAmoadd (o : AmoF) (s : State) : Out := amo 0 (fun x y => x + y) o s
/-- `amoand`. -/
def execAmoand (o : AmoF) (s : State) : Out := amo 1 (fun x y => x &&& y) o s
/-- `amoor`. -/
def execAmoor (o : AmoF) (s : State) : Out := amo 2 (fun x y => x ||| y) o s
/-- `amoxor`. -/
def execAmoxor (o : AmoF) (s : State) : Out := amo 3 (fun x y => x ^^^ y) o s
/-- `amoswap`. -/
def execAmoswap (o : AmoF) (s : State) : Out := amo 4 (fun _ y => y) o s
/-- `amomin`. -/
def execAmomin (o : AmoF) (s : State) : Out :=
  amo 6 (fun x y => if readInt o.ty x ≤ readInt o.ty y then x else y) o s
/-- `amomax`. -/
def execAmomax (o : AmoF) (s : State) : Out :=
  amo 7 (fun x y => if readInt o.ty x ≤ readInt o.ty y then y else x) o s
/-- `amofadd`: the f-add combining step of R190. -/
def execAmofadd (o : AmoF) (s : State) : Out := amo 0 (combine (if o.ty = .f64 then 0 else 1)) o s
/-- `amofmax`: the f-max combining step of R190. -/
def execAmofmax (o : AmoF) (s : State) : Out := amo 7 (combine (if o.ty = .f64 then 4 else 5)) o s

/-- `amocas`: writes C only where the old value equals B. -/
def execAmocas (o : CasF) (s : State) : Out :=
  atomic o.gd o.d o.a { ty := o.ty, op := 5, b := s.amoB o.b o.ty, b2 := s.amoB o.c o.ty } o.acq o.rel o.sc
    (fun old => if old = s.amoB o.b o.ty then some (s.amoB o.c o.ty) else none) s

end Sys2Proof.Machine
end

