-- ==== Sys2Proof/Machine/Records.lean ====
section
/-! DEFINITION. The scheduler's side of records (R91–R94, R104–R115): reading and checking a snapshot, accepting a launch,
edges, reports, evaluating nodes and completing launches. -/

namespace Sys2Proof.Machine

open Sys2Proof

/-! ### The scheduler as a party -/

/-- The scheduler's accesses for a job. (DEDUCED: log 41) -/
def schedWho (key : Nat) : Who := { core := schedCore, key := key, thread := false }

/-- The scheduler keeps no line between its steps. -/
def State.clearSched (s : State) : State := s.clearHart schedCore

/-- What reads of the scheduler answer. -/
inductive Got where
  | ok (vs : List Nat) (s : State)
  | wait (s : State)
  | flt (va : Nat) (s : State)
  deriving DecidableEq, Repr

/-- Read 8-byte words through the job's translation. (DEDUCED: log 41) -/
def State.getWords (s : State) (key : Nat) : List Nat → Got
  | [] => .ok [] s
  | a :: as =>
      match s.loadAt (schedWho key) a 8 true with
      | .ok v s =>
          (match State.getWords s key as with
           | .ok vs s => .ok (v :: vs) s
           | r => r)
      | .flt f s => .flt f.va s
      | .wait _ s => .wait s
      | .err s => .flt a s

/-- Words can be written now: each is mapped writable, no host holds its line, and no parked thread its scratchpad. -/
def State.canWrite (s : State) (key : Nat) : List Nat → Got
  | [] => .ok [] s
  | a :: as =>
      match s.place (schedWho key) 1 a 8 with
      | (s, .error f) => .flt f.va s
      | (s, .ok (.mem m)) =>
          (match s.available m.tier m.pa 8 true with
           | (some _, s) => .wait s
           | (none, s) => State.canWrite s key as)
      | (s, .ok (.pad t _)) => if s.gate key schedCore t = .refuse then .wait s else State.canWrite s key as
      | (s, .ok (.held _)) => .wait s
      | (s, .ok _) => State.canWrite s key as

/-- Go on with an access of the scheduler, which reports nothing when it cannot be performed. -/
def Res.state (r : Res) : State :=
  match r with
  | .ok _ s | .flt _ s | .wait _ s | .err s => s

/-- Write a word through the job's translation. -/
def State.putWord (s : State) (key va v : Nat) : State := (s.storeAt (schedWho key) va 8 v).state

/-! ### Snapshots (R91–R94, R105, R106) -/

/-- Offsets of the words that the scheduler reads. -/
def snapOffsets : List Nat :=
  [0x000, 0x008, 0x010, 0x018, 0x020, 0x028, 0x030] ++ (List.range 8).map (fun i => 0x040 + 8 * i) ++
    (List.range 8).map (fun i => 0x080 + 8 * i)

/-- A snapshot from those words. -/
def Snap.ofWords (vs : List Nat) : Snap :=
  let w (i : Nat) : Nat := vs.getD i 0
  { ctl := w 0, dep := w 1, entry := w 2, cmplAddr := w 3, cmplTag := w 4,
    succ := (List.range 8).map (fun k => fld (w (5 + k / 4)) (16 * (k % 4)) 16),
    qbind := (List.range 8).map (fun k => w (7 + k)), node := (List.range 8).map (fun k => w (15 + k)) }

/-- CTL.kind: 0 stage, 1 condition, 2 loop, 3 switch. -/
def Snap.kind (n : Snap) : Nat := fld n.ctl 16 4
/-- CTL.gen. -/
def Snap.gen (n : Snap) : Nat := fld n.ctl 48 16
/-- CTL.rmax. -/
def Snap.rmax (n : Snap) : Nat := fld n.ctl 32 9
/-- CTL.rmin. -/
def Snap.rmin (n : Snap) : Nat := fld n.ctl 23 9
/-- CTL.prio. -/
def Snap.prio (n : Snap) : Nat := fld n.ctl 20 3
/-- CTL.nq. -/
def Snap.nq (n : Snap) : Nat := fld n.ctl 12 4
/-- CTL.nsucc. -/
def Snap.nsucc (n : Snap) : Nat := fld n.ctl 8 4
/-- DEP.npred. -/
def Snap.npred (n : Snap) : Nat := fld n.dep 16 16
/-- A NODE word. -/
def Snap.nodeWord (n : Snap) (k : Nat) : Nat := n.node.getD k 0
/-- A stage has an input queue. -/
def Snap.hasin (n : Snap) : Bool := n.kind == 0 && natBit (n.nodeWord 0) 19
/-- Descriptor of the input queue. -/
def Snap.inq (n : Snap) : Nat := n.qbind.getD (fld (n.nodeWord 0) 16 3) 0
/-- Binding `b` is an output queue. -/
def Snap.out (n : Snap) (b : Nat) : Bool := natBit (n.nodeWord 0) (8 + b)
/-- Descriptors of the output queues. -/
def Snap.outs (n : Snap) : List Nat := ((List.range n.nq).filter n.out).map (fun b => n.qbind.getD b 0)
/-- Microseconds after which a thread may be yielded; 0: never. -/
def Snap.idleUs (n : Snap) : Nat := fld (n.nodeWord 1) 0 32
/-- Most iterations of a loop. -/
def Snap.cap (n : Snap) : Nat := fld (n.nodeWord 1) 16 32
/-- Body of a loop. -/
def Snap.body (n : Snap) : Nat := fld (n.nodeWord 1) 0 12
/-- Address of a loop's iteration word. -/
def Snap.itw (n : Snap) : Nat := n.nodeWord 2
/-- A launch raises an MSI-X vector. -/
def Snap.msi (n : Snap) : Bool := natBit n.cmplTag 15
/-- The vector. -/
def Snap.vec (n : Snap) : Nat := fld n.cmplTag 0 8

/-- A well-formed CMPL_ADDR (R94). -/
def Snap.cmplOk (n : Snap) : Bool :=
  n.cmplAddr == 0 || (n.cmplAddr % 8 == 0 && (!natBit n.cmplAddr 63 || fld n.cmplAddr 52 11 == 0))

/-- What R94 asks of every kind, in a pool of `count` records. -/
def Snap.common (n : Snap) (count : Nat) : Bool :=
  n.kind < 4 && n.nsucc ≤ 8 && fld n.ctl 41 3 == 0 && fld n.ctl 0 8 == 0 && fld n.dep 32 32 == 0 &&
    fld n.cmplTag 8 7 == 0 && (!n.msi || 2 ≤ n.vec) && n.cmplOk && (n.succ.take n.nsucc).all (· < count)

/-- A non-zero aligned word address. -/
def wordOk (a : Nat) : Bool := a != 0 && a % 8 == 0

/-- What R92, R105 and R106 ask of a stage, its queues aside. -/
def Snap.stageOk (n : Snap) : Bool :=
  let w := n.nodeWord 0
  n.nq ≤ 8 && 1 ≤ n.rmin && n.rmin ≤ n.rmax && n.rmax ≤ 256 && n.entry != 0 && n.entry % 4 == 0 &&
    fld w 20 44 == 0 && fld w 0 8 == 0 && fld (n.nodeWord 1) 32 32 == 0 &&
    (!natBit w 19 || (fld w 16 3 < n.nq && !n.out (fld w 16 3))) &&
    (List.range 8).all (fun b => !n.out b || b < n.nq)

/-- A well-formed snapshot of record `i`, its queues aside. -/
def Snap.wellFormed (n : Snap) (count i : Nat) : Bool :=
  n.common count &&
    (match n.kind with
     | 0 => n.stageOk
     | 1 => n.nsucc == 2 && wordOk (n.nodeWord 0)
     | 2 =>
         wordOk (n.nodeWord 0) && n.body < count && n.body != i && 1 ≤ n.cap && n.itw % 8 == 0 &&
           fld (n.nodeWord 1) 48 16 == 0 && fld (n.nodeWord 1) 12 4 == 0
     | _ => 1 ≤ n.nsucc && wordOk (n.nodeWord 0))

/-! ### Queues (R113, R115) -/

/-- A well-formed base and CFG word; res0 bits are ignored (R12). -/
def queueOk (base cfg : Nat) : Bool :=
  let lcap := fld cfg 0 5
  let esz := fld cfg 8 8
  base % 8 == 0 && 1 ≤ lcap && lcap ≤ 20 && 1 ≤ esz && esz ≤ 32 && fld cfg 24 20 < 2 ^ lcap

/-- Check every bound queue: `flt` for a malformed one. -/
def State.checkQueues (s : State) (key : Nat) : List Nat → Got
  | [] => .ok [] s
  | d :: ds =>
      if d % 128 != 0 then .flt d s
      else match s.getWords key [d, d + 8] with
        | .ok [base, cfg] s => if queueOk base cfg then State.checkQueues s key ds else .flt d s
        | .ok _ s => .flt d s
        | r => r

/-- Check that another producer can be counted at each output queue, `before` being those counted already. -/
def State.checkOuts (s : State) (key : Nat) : List Nat → List Nat → Got
  | [], _ => .ok [] s
  | d :: ds, before =>
      match s.getWords key [d + 0x20] with
      | .ok [w] s =>
          if 255 ≤ fld w 8 8 + before.count d then .flt d s
          else (match s.canWrite key [d + 0x20] with
            | .ok _ s => State.checkOuts s key ds (d :: before)
            | r => r)
      | .ok _ s => .flt d s
      | r => r

/-- A stage that binds a queue for output is accepted: nprod + 1, closed 0; res0 bits read as zero after it (R12). -/
def State.addProducer (s : State) (key d : Nat) : State :=
  match s.getWords key [d + 0x20] with
  | .ok [w] s => s.putWord key (d + 0x20) (min (fld w 8 8 + 1) 255 * 256)
  | .ok _ s | .wait s | .flt _ s => s

/-- Wake the pops of a job that wait on a queue. -/
def State.wakePops (s : State) (key : Nat) : State :=
  s.cores.foldl (fun s e => match e.2.wait, (s.ring (e.1 / 16)).thread with
    | .qpop _ _ _, some t => if t.key = key then s.after (.qpopEvent (Fin.ofNat 4096 e.1)) else s
    | _, _ => s) s

/-- Wake the pushes of a job that wait on a queue. -/
def State.wakePushes (s : State) (key : Nat) : State :=
  s.cores.foldl (fun s e => match e.2.wait, (s.ring (e.1 / 16)).thread with
    | .qpush _, some t => if t.key = key then s.after (.qpushEvent (Fin.ofNat 4096 e.1)) else s
    | _, _ => s) s

/-- A producing stage has completed: nprod − 1, and at 0 the queue closes. -/
def State.dropProducer (s : State) (key d : Nat) : State :=
  match s.getWords key [d + 0x20] with
  | .ok [w] s =>
      let n := fld w 8 8 - 1
      let s := s.putWord key (d + 0x20) (n * 256 + (if n = 0 then 1 else w % 2))
      if n = 0 then s.wakePops key else s
  | .ok _ s | .wait s | .flt _ s => s

/-! ### Reports (R107) -/

/-- Code of a record state. -/
def RecSt.code : RecSt → Nat
  | .idle => 0
  | .waiting => 1
  | .ready => 2
  | .running => 3
  | .completing => 4

/-- Write CTL.state and DEP.wait, and gen where given; a host that holds the record's line must let it go first. -/
def State.tryReport (s : State) (j i : Nat) (gen : Option Nat) : State :=
  let k := s.job j
  let r := s.recd j i
  let a := k.poolBase + 512 * i
  match s.canWrite k.key [a, a + 8] with
  | .wait s => s.reportDue j i
  | .flt _ s => s
  | .ok _ s =>
      match s.getWords k.key [a, a + 8] with
      | .ok [ctl, dep] s =>
          let ctl := fld ctl 0 44 + r.st.code * 2 ^ 44 + (gen.getD (fld ctl 48 16)) % 65536 * 2 ^ 48
          (s.putWord k.key a ctl).putWord k.key (a + 8) (fld dep 16 48 * 65536 + r.wait % 65536)
      | .ok _ s | .wait s | .flt _ s => s

/-- Report a transition. -/
def State.report (s : State) (j i : Nat) : State := (s.tryReport j i none).clearSched

/-- Write the reports that had to wait. -/
def State.flushReports (s : State) : State :=
  s.reports.foldl (fun s e => s.report e.1 e.2) { s with reports := [] }

/-- A record changes its state. -/
def State.toState (s : State) (j i : Nat) (st : RecSt) : State := (s.setRec j i { s.recd j i with st := st }).report j i

/-- A launch has ended with a status: steps 1 to 3 of R98 follow. -/
def State.finishLaunch (s : State) (j i status : Nat) : State :=
  ((s.setRec j i { s.recd j i with st := .completing, status := status }).report j i).after
    (.launchCompletion (Fin.ofNat 256 j) (Fin.ofNat 4096 i))

/-- Let a ready launch be seen to: rings for a stage, an evaluation for another kind. -/
def State.seeTo (s : State) (j i kind : Nat) : State :=
  let a : Fin 256 := Fin.ofNat 256 j
  let b : Fin 4096 := Fin.ofNat 4096 i
  s.after (match kind with
    | 0 => .ringAssignment 0
    | 1 => .conditionEval a b
    | 2 => .loopIteration a b
    | _ => .switchEval a b)

/-! ### Acceptance (R93, R94, R102, R108) -/

/-- How an acceptance ends: it waits for the host, the record cannot be read, or the launch exists. -/
inductive Accepted where
  | wait (s : State)
  | lost (s : State)
  | done (s : State)
  deriving DecidableEq, Repr

/-- Another launch uses a capture buffer. (DEDUCED: log 46) -/
def State.bufInUse (s : State) (base : Nat) : Bool :=
  s.jobs.any (fun e => e.2.recs.any (fun r => r.2.st != .idle && r.2.cap.mode != 0 && r.2.cap.base == base))

/-- The capture controls of a job make a launch fail at acceptance (R102, R103). -/
def State.captureBad (s : State) (k : Job) : Bool :=
  k.capMode != 0 && (k.capSize == 0 || k.capBase < 0x001000000000 || 0x00D000000000 < k.capBase + k.capSize ||
    s.bufInUse k.capBase || (k.capMode == 2 && s.ovfBufs.contains k.capBase))

/-- A fresh launch of a record. -/
def State.newLaunch (s : State) (j i : Nat) (n : Snap) : State :=
  let r := s.recd j i
  { s.setRec j i { ({} : Rec) with
      held := r.held, snap := some n, gen := n.gen, accepted := s.order, lastGrant := s.order } with order := s.order + 1 }

/-- Latch capture or replay for a launch; one that latches neither leaves CAP_STAT as it is. (DEDUCED: log 46) (DESIGN CHOICE: log 124) -/
def State.latchCapture (s : State) (j i : Nat) : State :=
  let k := s.job j
  if k.capMode = 0 then s
  else
    let s := s.setJob j { k with capRec := i, capUsed := 0, capMism := false, capOvf := false, capAct := true }
    let s := if k.capMode = 1 then { s with ovfBufs := s.ovfBufs.filter (· != k.capBase) } else s
    s.setRec j i { s.recd j i with cap := { mode := k.capMode, base := k.capBase, size := k.capSize } }

/-- Accept a launch of an idle record, armed or started by an edge. -/
def State.accept (s : State) (j i : Nat) (edge : Bool) : Accepted :=
  let k := s.job j
  let base := k.poolBase + 512 * i
  match s.getWords k.key (snapOffsets.map (base + ·)) with
  | .wait s => .wait s.clearSched
  | .flt va s => .lost (s.clearSched.log (entry k.key 0xFFF 0x0025 1 0 va [wd i]))
  | .ok vs s =>
      let n := Snap.ofWords vs
      let bad (s : State) : Accepted := .done ((s.clearSched.newLaunch j i n).finishLaunch j i 1)
      if !n.wellFormed k.poolCount i then bad s
      else
        let queues := if n.kind = 0 then n.qbind.take n.nq else []
        let outs := if n.kind = 0 then n.outs else []
        match s.checkQueues k.key queues with
        | .wait s => .wait s.clearSched
        | .flt _ s => bad s
        | .ok _ s =>
            match s.checkOuts k.key outs [] with
            | .wait s => .wait s.clearSched
            | .flt _ s => bad s
            | .ok _ s =>
                let s := s.clearSched
                if s.captureBad (s.job j) then .done ((s.newLaunch j i n).finishLaunch j i 3)
                else
                  let s := (s.newLaunch j i n).latchCapture j i
                  let s := (outs.foldl (fun s d => s.addProducer k.key d) s).clearSched
                  let wait := if edge then max n.npred 1 - 1 else 0
                  let s := s.setRec j i { s.recd j i with bound := outs, wait := wait }
                  if wait = 0 then .done ((s.toState j i .ready).seeTo j i n.kind)
                  else .done (s.toState j i .waiting)

/-- Hold an edge, or drop it. (DEDUCED: log 43) -/
def State.holdEdge (s : State) (j i : Nat) : State :=
  let r := s.recd j i
  if 15 ≤ r.held then s.log (entry (s.job j).key 0xFFF 0x0022 1 0 0 [wd i])
  else s.setRec j i { r with held := r.held + 1 }

/-- An edge reaches a waiting record. -/
def State.countEdge (s : State) (j i : Nat) : State :=
  let r := s.recd j i
  let kind := match r.snap with
    | some n => n.kind
    | none => 0
  let s := s.setRec j i { r with wait := r.wait - 1 }
  if r.wait ≤ 1 then (s.toState j i .ready).seeTo j i kind else s.report j i

/-- An edge reaches a record (R108). One whose snapshot must wait for the host is held until it can be taken. (DEDUCED: log 43) -/
def State.edgeNow (s : State) (j i : Nat) : State :=
  match (s.recd j i).st with
  | .idle =>
      (match s.accept j i true with
       | .wait s => s.holdEdge j i
       | .lost s | .done s => s)
  | .waiting => s.countEdge j i
  | _ => s.holdEdge j i

/-! ### Simultaneous events (R96, R108, R126) -/

/-- Why a doorbell is rejected (R96, R101), none when it arms its record. (DEDUCED: log 87) -/
def State.bellCause (s : State) (j idx : Nat) : Option Nat :=
  let k := s.job j
  if k.st != .open_ then some 1
  else if s.dev.attReq then some 2
  else if k.poolCount ≤ idx then some 3
  else if (s.recd j idx).st != .idle then some 4
  else none

/-- A bell waits for a CXL.mem write that was received before it on its link (R97). -/
def State.bellWaits (s : State) (b : Bell) : Bool := b.lines.any (fun l => (s.heldWrites b.link).contains l)

/-- The doorbell that is served next in a job is for a record: it and another event have reached the record together. (DEDUCED: log 43) -/
def State.tied (s : State) (j i : Nat) : Bool :=
  match (s.job j).bells with
  | b :: _ => b.idx == i && !s.bellWaits b
  | [] => false

/-- Record the order of events that reached a record together: event 1 doorbell, 2 `arm`, 3 edge (R126, R261 code 1). A
replay in which another event was served there ends with status 5. (DEDUCED: log 43) -/
def State.served (s : State) (j i ev : Nat) : State :=
  if (s.recd j i).cap.mode = 0 then s
  else
    let r := s.choice j i 1 0 ev 0
    if fld (r.1.headD 0) 28 4 = ev then r.2 else r.2.mismatch j i

/-- A replay has recorded that the doorbell is served before the other event. -/
def State.bellFirst (s : State) (j i : Nat) : Bool :=
  let k := s.job j
  let c := (s.recd j i).cap
  let c : Capture :=
    if (s.recd j i).st = .idle then { mode := k.capMode, base := k.capBase, size := k.capSize } else c
  c.mode == 2 && !c.stopped && (match (s.plannedIn c).head? with
    | some w => fld w 0 8 == 1 && fld w 28 4 == 1
    | none => false)

/-- Drop the oldest bell. -/
def State.popBell (s : State) (j : Nat) : State :=
  let k := s.job j
  s.setJob j { k with bells := k.bells.drop 1 }

/-- Serve the oldest doorbell of a job: it arms its record or is rejected (R96); it stays while an earlier write of its
link has not been performed, or while the record's lines must come from the host. -/
def State.serveBell (s : State) (j : Nat) : State :=
  match (s.job j).bells with
  | [] => s
  | b :: _ =>
      let note (s : State) : State := if b.tied then s.served j b.idx 1 else s
      if s.bellWaits b then s
      else match s.bellCause j b.idx with
        | some cause => note ((s.popBell j).rejectBell j b.idx cause)
        | none =>
            match s.accept j b.idx false with
            | .wait s => s
            | .lost s | .done s =>
                let s := s.popBell j
                let k := s.job j
                note (s.setJob j { k with acc := (k.acc + 1) % 2 ^ 24 })

/-- Mark the oldest doorbell as one that met another event. -/
def State.tie (s : State) (j : Nat) : State :=
  let k := s.job j
  match k.bells with
  | b :: bs => s.setJob j { k with bells := { b with tied := true } :: bs }
  | [] => s

/-- Serve an event at a record; a doorbell that has reached it too is served after it, or before it where a replay has
recorded so, and their order is captured (R108, R126). (DEDUCED: log 43) -/
def State.together (s : State) (j i ev : Nat) (k : State → State) : State :=
  if !s.tied j i then k s
  else
    let s := s.tie j
    let s := if s.bellFirst j i then s.serveBell j else s
    (k s).served j i ev

/-- An edge reaches a record, perhaps together with a doorbell. (DEDUCED: log 43) -/
def State.edge (s : State) (j i : Nat) : State := s.together j i 3 (fun s => s.edgeNow j i)

/-- Held edges are applied one at a time to a record that has returned to idle. -/
def State.applyHeld (s : State) (j i : Nat) : Nat → State
  | 0 => s
  | fuel + 1 =>
      let r := s.recd j i
      if r.held = 0 then s
      else
        let t := s.setRec j i { r with held := r.held - 1 }
        match r.st with
        | .idle =>
            (match t.accept j i true with
             | .wait t => t.setRec j i { t.recd j i with held := r.held }
             | .lost t | .done t => State.applyHeld t j i fuel)
        | .waiting => State.applyHeld (t.countEdge j i) j i fuel
        | _ => s

/-! ### Evaluating nodes (R111, R112) -/

/-- What evaluating a node word answers. -/
inductive Eval where
  | ok (w : Nat) (s : State)
  | wait (s : State)
  | ended (s : State)
  deriving DecidableEq, Repr

/-- A node word faulted: error log code 0x0024, and the launch completes with status 1. -/
def State.nodeFault (s : State) (j i va : Nat) : State :=
  (s.clearSched.log (entry (s.job j).key 0xFFF 0x0024 1 0 va [wd i])).finishLaunch j i 1

/-- Read a node's word by a host-scope acquire; the value is captured (R126). -/
def State.evalWord (s : State) (j i : Nat) (n : Snap) : Eval :=
  let key := (s.job j).key
  let a := n.nodeWord 0
  match s.loadSync (schedWho key) a 8 true true 6 with
  | .wait _ s => .wait s.clearSched
  | .flt f s => .ended (s.nodeFault j i f.va)
  | .err s => .ended (s.nodeFault j i a)
  | .ok w s =>
      let s := s.clearSched
      let r := s.choice j i 6 0 0 w
      if (r.2.recd j i).st == .completing then .ended r.2
      else
        let w := r.1.getD 1 w
        .ok w (r.2.setRec j i { r.2.recd j i with word := w })

/-- A launch of a node of a kind that is ready or running. -/
def State.nodeOf? (s : State) (j i kind : Nat) : Option Snap :=
  let r := s.recd j i
  match r.snap with
  | some n => if (r.st == .ready || r.st == .running) && n.kind == kind && (s.job j).st == .open_ then some n else none
  | none => none

/-- Begin to evaluate. -/
def State.startNode (s : State) (j i : Nat) : State :=
  if (s.recd j i).st == .ready then s.toState j i .running else s

/-- CONDITION_EVAL (R111). -/
def execConditionEval (j : Fin 256) (r : Fin 4096) (s : State) : Out :=
  .next (match s.nodeOf? j.val r.val 1 with
    | none => s
    | some n =>
        match (s.startNode j.val r.val).evalWord j.val r.val n with
        | .ok _ s => s.finishLaunch j.val r.val 0
        | .wait s | .ended s => s)

/-- SWITCH_EVAL (R111, R104): an index out of range is logged. -/
def execSwitchEval (j : Fin 256) (r : Fin 4096) (s : State) : Out :=
  .next (match s.nodeOf? j.val r.val 3 with
    | none => s
    | some n =>
        match (s.startNode j.val r.val).evalWord j.val r.val n with
        | .ok w s =>
            let s := if w < n.nsucc then s
              else s.log (entry (s.job j.val).key 0xFFF 0x0023 1 0 0 [wd w, wd r.val])
            s.finishLaunch j.val r.val 0
        | .wait s | .ended s => s)

/-- Arm a loop's body when it is idle; one whose record cannot be read counts as completed with status 1. -/
def State.armBody (s : State) (j i : Nat) (n : Snap) : State :=
  if (s.recd j n.body).st != .idle then s
  else match s.accept j n.body false with
    | .wait s => s
    | .lost s =>
        (s.setRec j i { s.recd j i with armBody := false, bodyOut := true, bodyStatus := some 1 }).after
          (.loopBodyDone (Fin.ofNat 256 j) (Fin.ofNat 4096 i))
    | .done s => s.setRec j i { s.recd j i with armBody := false, bodyOut := true }

/-- LOOP_ITERATION (R112). -/
def execLoopIteration (j : Fin 256) (r : Fin 4096) (s : State) : Out :=
  let i := r.val
  .next (match s.nodeOf? j.val i 2 with
    | none => s
    | some n =>
        let s := s.startNode j.val i
        let c := s.recd j.val i
        if c.bodyOut then s
        else if c.armBody then s.armBody j.val i n
        else
          let key := (s.job j.val).key
          match (if n.itw = 0 then Got.ok [] s else s.canWrite key [n.itw]) with
          | .wait s => s.clearSched
          | .ok _ s | .flt _ s =>
              match s.clearSched.evalWord j.val i n with
              | .wait s | .ended s => s
              | .ok w s =>
                  if w = 0 ∨ c.iter = n.cap then s.finishLaunch j.val i 0
                  else
                    let go (s : State) : State :=
                      (s.setRec j.val i { s.recd j.val i with armBody := true }).armBody j.val i n
                    if n.itw = 0 then go s
                    else match s.storeSync (schedWho key) n.itw 8 c.iter true 6 with
                      | .ok _ s => go s.clearSched
                      | .flt f s => s.nodeFault j.val i f.va
                      | .wait _ s | .err s => s.nodeFault j.val i n.itw)

/-- LOOP_BODY_DONE (R112, R110). -/
def execLoopBodyDone (j : Fin 256) (r : Fin 4096) (s : State) : Out :=
  .next (match s.nodeOf? j.val r.val 2, (s.recd j.val r.val).bodyStatus with
    | some _, some st =>
        let c := s.recd j.val r.val
        if !c.bodyOut then s
        else
          let s := s.setRec j.val r.val
            { c with bodyOut := false, bodyStatus := none, iter := if st = 0 then c.iter + 1 else c.iter }
          if st = 0 then s.after (.loopIteration j r) else s.finishLaunch j.val r.val st
    | _, _ => s)

/-! ### Completion (R98, R99, R104, R115) -/

/-- Traffic of a launch that its release covers (R98): copies it kicked and messages it sent that are not complete. -/
def State.launchTraffic (s : State) (j i : Nat) : Bool :=
  s.copies.any (fun c => c.launch == some (j, i)) || s.fab.pkts.any (fun p => p.launch == some (j, i) && p.unfinished)

/-- The release at host scope over a job's rings. -/
def State.releaseJob (s : State) (key : Nat) : State :=
  s.cores.foldl (fun s e => if (s.ring (e.1 / 16)).key == key then s.softBackAll e.1 else s) s

/-- The completion word (R99). -/
def completionWord (n : Snap) (status : Nat) : Nat := fld n.cmplTag 16 48 * 65536 + status % 256 * 256 + n.gen % 256

/-- Step 2 of R98: the completion word. -/
def State.writeCompletion (s : State) (j i status : Nat) (n : Snap) : State :=
  let k := s.job j
  let w := completionWord n status
  let lost (s : State) : State :=
    s.log (entry k.key 0xFFF 0x0030 1 0 (fld n.cmplAddr 0 63) [wd i, wd w])
  if n.cmplAddr = 0 then s
  else if !n.cmplOk then lost s
  else if natBit n.cmplAddr 63 then s.emit (.posted k.link (fld n.cmplAddr 0 52) (wd w))
  else match s.storeSync (schedWho k.key) n.cmplAddr 8 w true 6 with
    | .ok _ s => s.clearSched
    | .flt _ s | .wait _ s | .err s => lost s.clearSched

/-- Step 3 of R98: the MSI-X vector. -/
def State.raiseCompletion (s : State) (j : Nat) (n : Snap) : State :=
  if n.msi && 2 ≤ n.vec then s.raise (s.job j).link n.vec else s

/-- The successors that receive an edge (R104). -/
def Snap.selected (n : Snap) (word : Nat) : List Nat :=
  let ss := n.succ.take n.nsucc
  match n.kind with
  | 1 => [ss.getD (if word = 0 then 0 else 1) 0]
  | 3 => (ss.drop word).take 1
  | _ => ss

/-- The loops of a job whose body is a record. -/
def State.loopsOver (s : State) (j i : Nat) : List Nat :=
  ((s.job j).recs.filter (fun e => match e.2.snap with
    | some n => e.2.st == .running && n.kind == 2 && n.body == i
    | none => false)).map (·.1)

/-- A body's launch has completed, or the body is idle again: its loops are told. -/
def State.tellLoops (s : State) (j i status : Nat) : State :=
  (s.loopsOver j i).foldl (fun s l =>
    let c := s.recd j l
    let a : Fin 256 := Fin.ofNat 256 j
    let b : Fin 4096 := Fin.ofNat 4096 l
    if c.bodyOut then (s.setRec j l { c with bodyStatus := some status }).after (.loopBodyDone a b)
    else if c.armBody then s.after (.loopIteration a b)
    else s) s

/-- The words that a completion writes: the record's, its completion word, its queues' producer counts. -/
def completionWrites (k : Job) (i : Nat) (r : Rec) (n : Snap) : List Nat :=
  let word := if n.cmplAddr != 0 && n.cmplOk && !natBit n.cmplAddr 63 then [n.cmplAddr] else []
  word ++ r.bound.map (· + 0x20) ++ [k.poolBase + 512 * i]

/-- None of some words waits for the host. -/
def State.writable (s : State) (key : Nat) : List Nat → Bool × State
  | [] => (true, s)
  | a :: as =>
      match s.canWrite key [a] with
      | .wait s => let r := State.writable s key as; (false, r.2)
      | .ok _ s | .flt _ s => State.writable s key as

/-- Steps 2 to 5 of R98. -/
def State.completeLaunch (s : State) (j i : Nat) (r : Rec) (n : Snap) : State :=
  let k := s.job j
  let s := (r.bound.foldl (fun s d => s.dropProducer k.key d) s).clearSched
  let s := (s.writeCompletion j i r.status n).raiseCompletion j n
  let s := s.setRec j i { s.recd j i with
    st := .idle, gen := (n.gen + 1) % 65536, wait := 0, bound := [], cap := {}, want := 0, resv := none }
  let s := (s.tryReport j i (some ((n.gen + 1) % 65536))).clearSched
  let s := if r.cap.mode = 0 || k.capRec != i then s else s.setJob j { s.job j with capAct := false }
  let s := if r.status = 0 && k.st == .open_ then (n.selected r.word).foldl (fun s x => s.edge j x) s else s
  let s := s.tellLoops j i r.status
  let s := if k.st == .open_ then s.applyHeld j i 16 else s
  if k.st == .closing then s.after (.jobCloseDrainDone (Fin.ofNat 256 j)) else s

/-- A report that is due is written now (R107). -/
def State.reportNow (s : State) (j i : Nat) : State :=
  if s.reports.contains (j, i) then { s with reports := s.reports.filter (· != (j, i)) }.report j i else s

/-- LAUNCH_COMPLETION (R98): the transition to completing is reported, and the launch waits for what its release
covers, the write-backs that the host has still to let go among it. -/
def execLaunchCompletion (j : Fin 256) (r : Fin 4096) (s : State) : Out :=
  let k := s.job j.val
  let c := s.recd j.val r.val
  let s := if c.st == .completing then s.reportNow j.val r.val else s
  .next (
    if c.st != .completing then s
    else if s.launchTraffic j.val r.val then s
    else match c.snap with
      | none => s.setRec j.val r.val { c with st := .idle }
      | some n =>
          let s := s.releaseJob k.key
          if !s.reached 6 then s
          else match s.writable k.key (completionWrites k r.val c n) with
          | (false, s) => s.clearSched
          | (true, s) => s.clearSched.completeLaunch j.val r.val c n)

/-! ### Retries -/

/-- Work that waited for the host is tried again: write-backs, accesses, copies, doorbells, completions, evaluations, stopped threads. (DEDUCED: log 91) -/
def State.retry (s : State) : State :=
  let s := s.flushBacks.kickCopies
  let s := s.jobs.foldl (fun s e =>
    let j : Fin 256 := Fin.ofNat 256 e.1
    let s := if e.2.bells.isEmpty then s else s.after (.doorbellServe j)
    e.2.recs.foldl (fun s r =>
      let i : Fin 4096 := Fin.ofNat 4096 r.1
      match r.2.st, r.2.snap with
      | .completing, _ => s.after (.launchCompletion j i)
      | .ready, some n | .running, some n => if n.kind = 0 then s else s.seeTo e.1 r.1 n.kind
      | .idle, _ => if r.2.held = 0 then s else s.after (.ringAssignment 0)
      | _, _ => s) s) s
  let s := s.cores.foldl (fun s e => match e.2.wait with
    | .go _ | .bi _ => s.andThen (.core e.1)
    | _ => s) s
  let s := s.cores.foldl (fun s e => match e.2.stopping with
    | some i => s.stopAgain e.1 i
    | none => s) s
  let s := s.prefs.foldl (fun s p => s.after (.prefComplete (Fin.ofNat 4096 p.core) p.q)) s
  if s.reports.isEmpty then s else s.after (.ringAssignment 0)

end Sys2Proof.Machine
end

