-- ==== Sys2Proof/Machine/HostLines.lean ====
section
/-! DEFINITION. The host's side of memory: the host-line cache (R78–R81) and the host filter with its back-invalidates
(R82, R83). A line here is one of 64 bytes, numbered by its address divided by 64. -/

namespace Sys2Proof.Machine

open Sys2Proof

/-! ### Data that crosses the link -/

/-- The 64 bytes of a line as the host sees them: the bytes last written, whatever key they were written under. (DESIGN CHOICE: log 81) -/
def State.hostData (s : State) (l : Nat) : BitVec 512 := BitVec.ofNat 512 (Memory.readN s.mem (64 * l) 64)

/-- The masked bytes of a line as the host has sent them; they read as written under every key. (DESIGN CHOICE: log 81) -/
def State.hostFill (s : State) (l : Nat) (mask : BitVec 64) (data : BitVec 512) : State :=
  let m := (bitsSet mask).foldl (fun m i => Memory.write m (64 * l + i) (data.extractLsb' (8 * i) 8)) s.mem
  { s with mem := m, lineKeys := Table.erase s.lineKeys (l / 2) }

/-- The host writes the masked bytes of a line, which loses its release tag (R223). (DESIGN CHOICE: log 81) -/
def State.hostPut (s : State) (l : Nat) (mask : BitVec 64) (data : BitVec 512) : State := (s.hostFill l mask data).clearTag (l / 2)

/-- Recall every package copy of the device line that holds a line, its partials combined first (R79, R192), and of all lines that
homes hold for it (R174). -/
def State.recallFor (s : State) (l : Nat) (excl : Bool) : State :=
  let s := s.joinHomes (l / 2)
  (s.combineLine (s.dir (l / 2)).ckey (l / 2)).recall (l / 2) excl

/-! ### The host-line cache (R79, R80) -/

/-- A line of host memory. -/
def isHostLine (h : Nat) : Bool := rangeOf (64 * h) == .cxl

/-- The link that serves a host line (R167), and CXL.cache runs on it. -/
def State.cacheOpen (s : State) (h : Nat) : Bool :=
  let pa := 64 * h
  let i := fld pa 44 2
  s.dev.memOpen (if s.dev.bifur.getLsbD i then 2 * i + fld pa 43 1 else 2 * i)

/-- A half becomes invalid; with it goes the line's release tag. -/
def State.dropHalf (s : State) (h : Nat) : State :=
  (s.putHalf h { s.half h with st := .i }).clearTag (h / 2)

/-- SNP_DATA (R79). (DESIGN CHOICE: log 84) -/
def execSnpData (half : Nat) (s : State) : Out :=
  .next (if !s.cacheOpen half then s else match (s.half half).st with
    | .i => s.emit (.rspIHitI half)
    | .m =>
        let s := s.recallFor half false
        (s.putHalf half { s.half half with st := .s }).emit (.rspSFwdM half (s.hostData half))
    | .e | .s =>
        let s := s.recallFor half false
        (s.putHalf half { s.half half with st := .s }).emit (.rspSHitSE half))

/-- SNP_INV (R79). (DESIGN CHOICE: log 84) -/
def execSnpInv (half : Nat) (s : State) : Out :=
  .next (if !s.cacheOpen half then s else match (s.half half).st with
    | .i => s.emit (.rspIHitI half)
    | .m =>
        let s := s.recallFor half true
        (s.dropHalf half).emit (.rspIFwdM half (s.hostData half))
    | .e | .s => ((s.recallFor half true).dropHalf half).emit (.rspIHitSE half))

/-- SNP_CUR (R79): no state changes. (DESIGN CHOICE: log 84) -/
def execSnpCur (half : Nat) (s : State) : Out :=
  .next (if !s.cacheOpen half then s else match (s.half half).st with
    | .i => s.emit (.rspIHitI half)
    | .m => s.emit (.rspVFwdV half (s.hostData half))
    | .e | .s => s.emit (.rspVHitV half))

/-- The state a half takes from a GO (R79): what the host grants to a read; M for ownership of a half it shares, E for
ownership with data. (DEDUCED: log 83) -/
def goState (st : Mesi) (own : Bool) (g : GoGrant) : Mesi :=
  if own then (if st = .s then .m else .e)
  else match g with
    | .shared => .s
    | .exclusive => .e

/-- GO_RECEIPT (R79, R80): a GO that answers no request of the device changes nothing. (DESIGN CHOICE: log 84) -/
def execGoReceipt (half : Nat) (g : GoGrant) (data : BitVec 512) (s : State) : Out :=
  let x := s.half half
  .next (if !s.cacheOpen half then s else match x.req with
    | none => s
    | some own =>
        let s := if x.st = .i then s.hostFill half (BitVec.allOnes 64) data else s
        (s.putHalf half { st := goState x.st own g, req := none }).retry)

/-- HOST_LINE_CORE_READ (R79). -/
def execHostLineCoreRead (half _core : Nat) (s : State) : Out :=
  .next (if isHostLine half then (s.halfNeed half false).2 else s)

/-- HOST_LINE_CORE_WRITE (R79). -/
def execHostLineCoreWrite (half _core : Nat) (s : State) : Out :=
  .next (if isHostLine half then (s.halfNeed half true).2 else s)

/-- HOST_LINE_EVICTION (R79); a half that awaits GO is not evicted. (DEDUCED: log 83) -/
def execHostLineEviction (half : Nat) (s : State) : Out :=
  let x := s.half half
  .next (if x.req.isSome then s
    else match x.st with
      | .i => s
      | .m =>
          let s := s.recallFor half true
          ((s.dropHalf half).emit (.dirtyEvict half (s.hostData half))).retry
      | .e | .s => (((s.recallFor half true).dropHalf half).emit (.cleanEvictNoData half)).retry)

/-! ### The host filter (R82, R83) -/

/-- A line of module memory. -/
def isModuleLine (l : Nat) : Bool := rangeOf (64 * l) == .hbm || rangeOf (64 * l) == .lpddr

/-- A host request to a line: held while a back-invalidate is outstanding (R83), else handled. (DEDUCED: log 83) -/
def State.hostRequest (s : State) (r : MemReq) (i : Instr) (k : State → State) : State :=
  let x := s.filt r.line
  if !s.dev.memOpen r.link.val || !isModuleLine r.line then s
  else if x.bi.isSome then s.putFilt r.line { x with held := x.held ++ [i] }
  else k s

/-- MEM_RD_SHARED (R82). A host that may hold any state keeps it. (DESIGN CHOICE: log 82) -/
def execMemRdShared (r : MemReq) (s : State) : Out :=
  let l := r.line
  .next (s.hostRequest r (.memRdShared r) (fun s =>
    let s := s.recallFor l false
    let x := s.filt l
    (s.putFilt l { x with st := if x.st = .a then .a else .s }).emit (.memData l (s.hostData l))))

/-- MEM_RD_ANY (R82). -/
def execMemRdAny (r : MemReq) (s : State) : Out :=
  let l := r.line
  .next (s.hostRequest r (.memRdAny r) (fun s =>
    let s := s.recallFor l true
    (s.putFilt l { s.filt l with st := .a }).emit (.memData l (s.hostData l))))

/-- Bells that waited for a write of a line may be served (R97). -/
def State.bellsAfter (s : State) (l : Nat) : State :=
  (s.jobs.filter (fun e => (e.2.bells.take 1).any (fun b => b.lines.contains l))).foldl
    (fun s e => s.after (.doorbellServe (Fin.ofNat 256 e.1))) s

/-- MEM_WR (R82). -/
def execMemWr (r : MemReq) (data : BitVec 512) (mask : BitVec 64) (m : FilterSt) (s : State) : Out :=
  let l := r.line
  .next (s.hostRequest r (.memWr r data mask m) (fun s =>
    let s := (s.recallFor l true).hostPut l mask data
    ((s.putFilt l { s.filt l with st := m }).emit (.memCmp l)).bellsAfter l))

/-- BI_CORE_READ (R82). -/
def execBiCoreRead (l _core : Nat) (s : State) : Out := .next (if isModuleLine l then (s.filtNeed l false).2 else s)

/-- BI_CORE_WRITE (R82). -/
def execBiCoreWrite (l _core : Nat) (s : State) : Out := .next (if isModuleLine l then (s.filtNeed l true).2 else s)

/-- BIRSP_RECEIPT (R82, R83): the data written back is taken, the filter entry follows the answer, and what waited goes
on, the host's requests before anything else that is due (R97). A BISnpInv is answered by BIRspI alone. -/
def execBirspReceipt (l : Nat) (r : BiRsp) (data : Option (BitVec 512)) (s : State) : Out :=
  let x := s.filt l
  .next (match x.bi, r with
    | none, _ | some true, .shared => s
    | some inv, r =>
        let s := match data with
          | some d => s.hostPut l (BitVec.allOnes 64) d
          | none => s
        let st : FilterSt := if inv then .n else match r with
          | .inv => .n
          | .shared => .s
        let s := s.putFilt l { st := st, bi := none, held := [] }
        ({ s with turns := x.held.map Turn.event ++ s.turns }).retry)

/-- FILTER_EVICTION (R82): the entry is freed when BIRspI comes. -/
def execFilterEviction (l : Nat) (s : State) : Out :=
  let x := s.filt l
  .next (if x.bi.isSome || x.st = .n then s
    else (s.putFilt l { x with bi := some true }).emit (.biSnpInv l))

end Sys2Proof.Machine
end

