-- ==== Sys2Proof/Machine/Rings.lean ====
section
/-! DEFINITION. Rings and threads: starting a thread (R116–R118, R312), yields, grants and reservations (R119–R122), parking
and resuming (R124, R125). -/

namespace Sys2Proof.Machine

open Sys2Proof

/-! ### A ring changes hands (R118) -/

/-- The memory key of a scratchpad byte of a ring. -/
def padOfRing (r a : Nat) : Bool := a / 2 ^ 56 == 0xFE && a / 2 ^ 32 % 4096 / 16 == r

/-- Write zeros over the sixteen scratchpads of a ring. (DESIGN CHOICE: log 36) -/
def State.zeroPads (s : State) (r : Nat) : State := { s with mem := s.mem.filter (fun c => !padOfRing r c.1) }

/-- The cores of a ring. -/
def coresOf (r : Nat) : List Nat := (List.range 16).map (fun i => 16 * r + i)

/-- Write back and invalidate a core's level-one caches: versions of regions go to their undo logs (R124 step 6), those
of the oldest chunk are written back early, and partials go to their homes (R191). -/
def State.flushCore (s : State) (c : Nat) : State :=
  let s := s.softInval c
  let s := (s.core c).l1.foldl (fun s e =>
    match s.line c e.1 with
    | some l => if l.st == .n then s.evictN c e.1 else ((s.writeVersion c e.1 l).leaveLine c e.1 false).evictN c e.1
    | none => s) s
  let s := (s.core c).partials.foldl (fun s e =>
    let d := s.dir e.1
    s.putDir e.1 { d with held := Table.put d.held c e.2.2 }) s
  if (Table.get? s.cores c).isNone then s else s.setCore c { s.core c with partials := [], icache := [], l1 := [] }

/-- Flush every core of a ring. -/
def State.flushRing (s : State) (r : Nat) : State := (coresOf r).foldl (fun s c => s.flushCore c) s

/-- A core's interface registers at their reset values (R200). -/
def Core.cleanIo (c : Core) : Core :=
  { c with rb := Vector.replicate 4 {}, rbovf := 0, cpmask := 0xFFFFFFFF#32 }

/-- A ring passes to another job. -/
def State.passRing (s : State) (r : Nat) : State :=
  let s := (s.flushRing r).zeroPads r
  s.setRing r { s.ring r with strides := [] } |>.eachCore r Core.cleanIo

/-! ### Thread start -/

/-- A core at thread start (R312); its handler-only registers stay. -/
def Core.fresh (c : Core) (pc : Word) : Core :=
  { c with
    x := Vector.replicate 64 0, v := Vector.replicate 64 0, p := Vector.replicate 16 0, t := Vector.replicate 4 0,
    q := Vector.replicate 8 0, pc := pc, handler := false, vl := 0, vtype := 0x30, lanes := c.working, fflags := 0,
    frm := 0, tren := 0, srseed := 0, vcm := 0, vcmOn := false, mreq := 0, mslabs := 0, tshape := {}, tpAct := false, tpProg := 0,
    staging := 0, strip := {}, levels := [], inds := [], regions := [], logTail := 0, logOvf := false, logBase := 0,
    logEn := false, tmask := 0, tstk := 0, utvec := 0, ucause := 0, uepc := 0, uval := 0, asleep := false, wait := .none,
    held := [], stopping := none, spill := [], saved := none, contribs := [], sbuf := [], rfilter := [] }

/-- Every core of a ring at thread start: the registers of R312; a core keeps its sleep and its held interrupts. (DEDUCED: log 54) -/
def Core.between (c : Core) : Core := { c.fresh c.pc with asleep := c.asleep, held := c.held }

/-- Key of an `ssync` unit in `Rec.episodes`. -/
def epKey (sc unit : Nat) : Nat := 64 * sc + unit

/-- The unit of a scope that holds a ring: cluster, die, package (R216). -/
def unitOf (sc r : Nat) : Nat := if sc = 3 then r / 8 else if sc = 4 then r / 32 else 0

/-- The `ssync` counts of a thread that starts: the episodes already completed (R216). -/
def Rec.syncsAt (k : Rec) (r : Nat) : Vector Nat 3 :=
  Vector.ofFn (fun i => Table.get k.episodes (epKey (3 + i.val) (unitOf (3 + i.val) r)) 0)

/-- Start a thread of a launch on slot 0 of a ring (R116, R118, R278, R312). (DESIGN CHOICE: log 10) (DEDUCED: log 54) -/
def State.startThread (s : State) (j i r : Nat) (n : Snap) : State :=
  let k := s.job j
  let c := s.recd j i
  let s := if (s.ring r).key = k.key then s else s.passRing r
  let t : Thread := { job := j, record := i, ordinal := c.started, key := k.key, syncs := c.syncsAt r }
  let g := s.ring r
  let s := s.setRing r { g with
    key := k.key, thread := some t, reserved := none, head := 0, chunkCtr := 0, forked := none, chunks := [], tflags := 0,
    ns := false, nsq := 0, nov := 0, smev := 0, bcasts := [], liveOuts := [] }
  let s := s.eachCore r (fun c => if c.handler || c.stopping.isSome || c.saved.isSome then c else c.between)
  let h := 16 * r
  let x4 := wd (n.gen * 65536 + i % 4096)
  let f := (s.core h).fresh (wd n.entry)
  let f := ((f.setX 1 (wd (k.poolBase + 512 * i + 0x0C0))).setX 2 (wd c.started)).setX 3
    (wd (if n.hasin then 0 else c.total))
  let s := s.setCore h (f.setX 4 x4)
  let seed := s.input h 0x06 16 [(Config.freeWord s.free).toNat, 0]
  let s := seed.2.drew
  let s := s.setCore h { s.core h with srseed := wd (seed.1.headD 0) }
  (s.setRec j i { s.recd j i with started := c.started + 1, lastGrant := s.order, want := 0 })

/-! ### Stages and what they want (R120) -/

/-- A stage that is ready or running. -/
structure Stage where
  j : Nat
  i : Nat
  rc : Rec
  n : Snap
  deriving DecidableEq, Repr

/-- The stages of all open jobs that take part. -/
def State.stages (s : State) : List Stage :=
  (s.jobs.filter (fun e => e.2.st == .open_)).flatMap (fun e => e.2.recs.filterMap (fun r =>
    match r.2.snap with
    | some n => if (r.2.st == .ready || r.2.st == .running) && n.kind == 0 then some ⟨e.1, r.1, r.2, n⟩ else none
    | none => none))

/-- A word of a queue as the scheduler last observed it. -/
def State.peek (s : State) (key va : Nat) : Option Nat :=
  match (s.lookup schedCore key va).2 with
  | .ok l => some (s.physRead (s.matK l.lineKey) (l.frame + (va - l.page)) 8)
  | .error _ => none

/-- Occupancy, high-water mark and closed flag of a stage's input queue. -/
def State.queueOf (s : State) (key d : Nat) : Nat × Nat × Bool :=
  match s.peek key (d + 8), s.peek key (d + 0x10), s.peek key (d + 0x18), s.peek key (d + 0x20) with
  | some cfg, some pushed, some popped, some w => ((pushed + 2 ^ 64 - popped) % 2 ^ 64, fld cfg 24 20, natBit w 0)
  | _, _, _, _ => (0, 0, false)

/-- The launch replays recorded choices. -/
def Rec.replays (r : Rec) : Bool := r.cap.mode == 2 && !r.cap.stopped

/-- The scheduler choices still to come in a replay: code and ring. -/
def State.planned (s : State) (r : Rec) : List (Nat × Nat) :=
  (s.plannedIn r.cap).map (fun w => (fld w 0 8, fld w 20 8))

/-- The rings of the grants that come next in a replay. -/
def State.plannedGrants (s : State) (r : Rec) : List Nat := ((s.planned r).takeWhile (fun e => e.1 == 2)).map (·.2)

/-- The next choice of a replay. -/
def State.nextPlanned (s : State) (r : Rec) : Option (Nat × Nat) := (s.planned r).head?

/-- Effective priority, as the last pass fixed it. -/
def Stage.eprio (u : Stage) : Nat := u.rc.eprio

/-- Rings whose thread, running or parked, belongs to a stage. (DEDUCED: log 44) -/
def State.held (s : State) (u : Stage) : Nat := (s.ringsOf u.j u.i).length + (s.parkedOf u.j u.i).length

/-- Rings that a stage may take now. (DEDUCED: log 44) -/
def State.want (s : State) (u : Stage) : Nat :=
  let most := u.n.rmax - s.held u
  if u.rc.st == .ready then
    (if u.n.hasin then u.n.rmin
     else if u.rc.replays then min u.n.rmax (s.plannedGrants u.rc).length else u.n.rmax)
  else if !u.n.hasin then 0
  else if u.rc.replays then min most (s.plannedGrants u.rc).length
  else
    let q := s.queueOf (s.job u.j).key u.n.inq
    if q.2.1 < q.1 || (s.held u = 0 && 0 < q.1) then most else 0

/-- A ring is free of threads, of what a cancelled one has still outstanding (R124 step 3), and of a handler that an interrupt entered
without one (R127); a withdrawn ring is given to no launch (R245). (DEDUCED: log 44) -/
def State.ringFree (s : State) (r : Nat) : Bool :=
  let g := s.ring r
  g.thread.isNone && !g.withdrawn && s.quiet r && s.cores.all (fun e => e.1 / 16 != r || !e.2.handler)

/-- The rings free for a stage: those without a parked thread, and those given to it by parking. -/
def State.freeFor (s : State) (u : Nat × Nat) : List Nat :=
  (List.range 256).filter (fun r =>
    let g := s.ring r
    s.ringFree r && (g.parked.isNone || g.reserved == some u))

/-- Rings in order of hops from a reference ring, ties to the lower ID (R121). -/
def nearest (ref : Nat) (rs : List Nat) : List Nat :=
  (List.range 17).flatMap (fun h => rs.filter (fun r => hops ref r == h))

/-- The rings a stage receives, `k` of those free (R121). (DESIGN CHOICE: log 116) -/
def State.chooseRings (s : State) (u : Stage) (free : List Nat) (k : Nat) : List Nat :=
  match s.ringsOf u.j u.i with
  | ref :: _ => if u.rc.st == .ready then free.take k else (nearest ref free).take k
  | [] => free.take k

/-- Grant one ring. -/
def State.grantRing (s : State) (u : Stage) (r : Nat) : State :=
  let c := s.choice u.j u.i 2 r 0 0
  if (c.2.recd u.j u.i).st == .completing then c.2 else c.2.startThread u.j u.i r u.n

/-- Grant rings to a stage, which then runs. -/
def State.grant (s : State) (u : Stage) (rs : List Nat) : State :=
  let s :=
    if u.rc.st == .ready then
      (s.setRec u.j u.i { s.recd u.j u.i with total := rs.length }).toState u.j u.i .running
    else s
  let s := rs.foldl (fun s r => if (s.recd u.j u.i).st == .running then s.grantRing u r else s) s
  { s.setRec u.j u.i { s.recd u.j u.i with resv := none } with order := s.order + 1 }

/-! ### Resuming (R124, R125) -/

/-- Resume the thread parked on a ring. -/
def State.resumeRing (s : State) (r : Nat) : State :=
  let g := s.ring r
  match g.parked with
  | none => s
  | some p =>
      let ch := s.choice p.thread.job p.thread.record 5 r 0 0
      let s := ch.2
      if (s.recd p.thread.job p.thread.record).st == .completing then s
      else
        let s := ((if g.key = p.thread.key then s else s.flushRing r).zeroPads r)
        let s := { s with mem := p.pads.foldl (fun m (c : Host.Cell) => Memory.write m c.1 c.2) s.mem }
        let s := p.cores.foldl (fun s e =>
          let now := s.core e.1
          s.setCore e.1 { e.2 with
            lret := now.lret, scalarFails := now.scalarFails, withdrawn := now.withdrawn, tvec := now.tvec,
            ctxbase := now.ctxbase, tlb := now.tlb }) s
        let s := s.setRing r { s.ring r with
          key := p.thread.key, thread := some p.thread, parked := none, reserved := none, head := p.head,
          chunkCtr := p.chunkCtr, forked := p.forked, chunks := p.chunks, tflags := p.tflags, ns := p.ns, nsq := p.nsq,
          nov := p.nov, smev := p.smev, smevAt := p.smevAt, bcasts := [], liveOuts := p.liveOuts }
        let s := match p.strides with
          | some e => s.setRing r ((s.ring r).learn e.1 e.2)
          | none => s
        let s := s.drainNote p.thread.key
        let s := if p.smevIntr then s.after (.interruptDelivery (Fin.ofNat 256 r) .scopeMiss) else s
        let s := (p.chunks.filter (·.restart)).foldl
          (fun s k => s.after (.chunkRestart (Fin.ofNat 4096 (coreAt r k.slot)))) s
        let s := p.liveOuts.foldl (fun s _ => s.after (.liveOutArrival (Fin.ofNat 256 r))) s
        let cur := s.cur
        let s := (coresOf r).foldl (fun s c =>
          if (s.core c).mreq = 0 && (s.core c).spill.isEmpty then s.wakeHeld c
          else ({ s.takeSlabs c with cur := c }).rejoin) s
        let s := ({ s with cur := coreAt r p.head }).resume true
        { s with cur := cur }.kickCopies

/-! ### Parking (R122, R124, R125) -/

/-- Parts of a park that must have come to rest first: copies and prefetches of the ring's cores, and a chunk that is
committing. (DEDUCED: log 44) -/
def State.parkable (s : State) (r : Nat) : Bool :=
  let k := s.core (coreAt r (s.ring r).head)
  !k.wait.atomic && !k.handler && (k.stopping.isNone || k.stopping == some .park) && s.copies.all (fun c => c.core / 16 != r) &&
    s.prefs.all (fun p => p.core / 16 != r)

/-- The image of a ring whose thread has stopped in its handler: its sixteen cores (R125). -/
def State.image (s : State) (r : Nat) (t : Thread) : Parked :=
  let g := s.ring r
  let back (c : Core) : Core := match c.saved with
    | some v => { c with
        handler := false, pc := v.pc, wait := v.wait, strip := v.strip, lanes := v.lanes, mreq := v.mreq, saved := none }
    | none => c
  { thread := t, cores := (coresOf r).map (fun c => (c, back (s.core c))),
    pads := s.mem.filter (fun c => padOfRing r c.1), since := s.order, forked := g.forked, chunks := g.chunks,
    tflags := g.tflags, chunkCtr := g.chunkCtr, head := g.head, ns := g.ns, nsq := g.nsq, nov := g.nov, smev := g.smev,
    smevAt := g.smevAt, liveOuts := g.liveOuts,
    strides := g.forked.bind (fun f => g.strides.find? (fun e => e.1 == f.f)) }

/-- A park has stopped the thread of a ring, and goes on when nothing is outstanding there (R124). -/
def State.parking (s : State) (r : Nat) : Bool := (s.core (coreAt r (s.ring r).head)).stopping == some .park

/-- Threads that a park has stopped go on, with the interrupts held meanwhile: all but the one that is to be parked, and one whose park a
replay has recorded. (DEDUCED: log 103) -/
def State.unstop (s : State) (but : Option Nat) : State :=
  s.cores.foldl (fun s e =>
    let r := e.1 / 16
    let planned := s.stages.any (fun u => u.rc.replays && s.nextPlanned u.rc == some (4, r))
    if e.2.stopping == some .park && but != some r && !planned then
      ((s.setCore e.1 { s.core e.1 with stopping := none }).refork r).redeliver e.1
    else s) s

/-- Park the thread that runs on a ring and give the ring to a stage. -/
def State.parkRing (s : State) (r : Nat) (u : Nat × Nat) : State :=
  match (s.ring r).thread with
  | none => s
  | some t =>
      let c := coreAt r (s.ring r).head
      match s.stopThread c .park 0 with
      | .wait s => s
      | .fault s => s
      | .done s =>
          let ch := s.choice t.job t.record 4 r 0 0
          let s := ch.2
          if (s.recd t.job t.record).st == .completing then s
          else
            let s := s.flushRing r
            let p := s.image r t
            let s := s.setRing r { s.ring r with
              thread := none, parked := some p, reserved := some u, forked := none, chunks := [], tflags := 0,
              bcasts := [], liveOuts := [], ns := false, smev := 0 }
            { s.eachCore r Core.endThread with order := s.order + 1 }.after (.ringAssignment 0)

/-- The stage of a thread that runs on a ring. -/
def State.stageOn (s : State) (r : Nat) : Option Stage :=
  match (s.ring r).thread with
  | none => none
  | some t => s.stages.find? (fun u => u.j == t.job && u.i == t.record)

/-- Rings whose threads a stage may park: threads of other jobs, of lower effective priority, on rings that hold no other
parked thread. -/
def State.parkTargets (s : State) (u : Stage) : List (Nat × Stage) :=
  ((List.range 256).filter (fun r => (s.ring r).parked.isNone)).filterMap (fun r =>
    match s.stageOn r with
    | some v =>
        if v.j != u.j && v.eprio < u.eprio &&
            (!v.rc.replays || s.nextPlanned v.rc == some (4, r)) then some (r, v) else none
    | none => none)

/-- Prefer the lower effective priority, then the later last grant, then the higher ring. -/
def parkBefore (a b : Nat × Stage) : Bool :=
  if a.2.eprio != b.2.eprio then a.2.eprio < b.2.eprio
  else if a.2.rc.lastGrant != b.2.rc.lastGrant then b.2.rc.lastGrant < a.2.rc.lastGrant
  else b.1 < a.1

/-- PARK (R122): one thread is parked for a stage that has held a reservation for 50 µs. (DEDUCED: log 103) -/
def execPark (j : Fin 256) (r : Fin 4096) (s : State) : Out :=
  .next (match s.stages.find? (fun u => u.j == j.val && u.i == r.val) with
    | none => s
    | some u =>
        let ts := s.parkTargets u
        let free := (s.freeFor (u.j, u.i)).length
        if u.rc.st != .ready || u.rc.resv.getD 0 < 50 || u.n.rmin ≤ free || ts.length + free < u.n.rmin then s.unstop none
        else match ts with
          | [] => s.unstop none
          | t :: rest =>
              let best := (ts.find? (fun t => s.parking t.1)).getD (rest.foldl (fun a b => if parkBefore b a then b else a) t)
              let s := s.unstop (some best.1)
              if s.parkable best.1 then s.parkRing best.1 (u.j, u.i) else s)

/-! ### One pass of R120 -/

/-- Time waited at a queue goes on. -/
def State.ageWaits (s : State) (us : Nat) : State :=
  { s with cores := s.cores.map (fun e => match e.2.wait with
    | .qpop o n y => (e.1, { e.2 with wait := .qpop o (n + us) y })
    | _ => e) }

/-- Stages that want rings age, and each stage's effective priority is fixed for the pass. (DEDUCED: log 44) (DESIGN CHOICE: log 115) -/
def State.ageStages (s : State) (us : Nat) : State :=
  s.stages.foldl (fun s u =>
    let wants := 0 < s.want u || !(s.parkedOf u.j u.i).isEmpty
    let w := if wants then u.rc.want + us else 0
    s.setRec u.j u.i { s.recd u.j u.i with want := w, eprio := min 7 (u.n.prio + w / 1000) }) s

/-- Threads of a stage at a yield point: microseconds waited and ring, longest first, ties higher ring first. -/
def State.yielders (s : State) (u : Stage) : List (Nat × Nat) :=
  let ts := (s.ringsOf u.j u.i).filterMap (fun r => match (s.core (coreAt r (s.ring r).head)).wait with
    | .qpop _ n true => some (n, r)
    | _ => none)
  ts.foldl insertY []
where
  /-- Keep the order. -/
  insertY : List (Nat × Nat) → Nat × Nat → List (Nat × Nat)
    | [], a => [a]
    | b :: bs, a => if b.1 < a.1 || (b.1 == a.1 && b.2 < a.2) then a :: b :: bs else b :: insertY bs a

/-- Step 1: yields. -/
def State.yieldStage (su : State × Nat) (u : Stage) : State × Nat :=
  if u.n.idleUs = 0 then su
  else
    let s := su.1
    let spare := (s.ringsOf u.j u.i).length - max u.n.rmin 1
    let r := (s.yielders u).foldl (fun (a : State × Nat × Nat) t =>
      let ok := if u.rc.replays then a.1.nextPlanned (a.1.recd u.j u.i) == some (3, t.2)
        else 0 < a.2.1 && 0 < a.2.2 && u.n.idleUs ≤ t.1
      if !ok then a
      else
        let c := a.1.choice u.j u.i 3 t.2 0 0
        if (c.2.recd u.j u.i).st == .completing then (c.2, a.2)
        else ((c.2.endRing t.2).syncNote (s.job u.j).key, a.2.1 - 1, a.2.2 - 1)) (s, spare, su.2)
    (r.1, r.2.2)

/-- Who may take a ring: a stage, or the thread parked on a ring. -/
inductive Wanter where
  | stage (u : Stage)
  | thread (r : Nat) (u : Stage) (since : Nat)
  deriving DecidableEq, Repr

/-- Order of service, lowest first: effective priority, parked threads, last grant or time of parking, acceptance. -/
def Wanter.rank : Wanter → Nat × Nat × Nat × Nat
  | .stage u => (7 - u.eprio, 1, u.rc.lastGrant, u.rc.accepted)
  | .thread _ u since => (7 - u.eprio, 0, since, 0)

/-- One rank before another. -/
def rankLt (a b : Nat × Nat × Nat × Nat) : Bool :=
  if a.1 != b.1 then a.1 < b.1
  else if a.2.1 != b.2.1 then a.2.1 < b.2.1
  else if a.2.2.1 != b.2.2.1 then a.2.2.1 < b.2.2.1
  else a.2.2.2 < b.2.2.2

/-- Every wanter. (DEDUCED: log 44) -/
def State.wanters (s : State) : List Wanter :=
  let us := s.stages
  let parked := s.rings.filterMap (fun e => match e.2.parked with
    | some p =>
        (us.find? (fun u => u.j == p.thread.job && u.i == p.thread.record)).bind (fun u =>
          if u.rc.replays && s.nextPlanned u.rc != some (5, e.1) then none
          else some (Wanter.thread e.1 u p.since))
    | none => none)
  parked ++ (us.filter (fun u => 0 < s.want u)).map Wanter.stage

/-- The first wanter in order of service. -/
def firstWanter : List Wanter → Option Wanter
  | [] => none
  | w :: ws => some (ws.foldl (fun a b => if rankLt b.rank a.rank then b else a) w)

/-- Some ring is free: the loop of step 2 goes on. -/
def State.anyFree (s : State) : Bool := (List.range 256).any s.ringFree

/-- Step 2: grants, with those skipped in this pass; the answer names the stage that holds a reservation, which is the
wanter next in order. (DEDUCED: log 44) -/
def State.grants (s : State) (skip : List (Nat × Nat × Nat × Nat)) : Nat → State × Option (Nat × Nat)
  | 0 => (s, none)
  | fuel + 1 =>
      match firstWanter (s.wanters.filter (fun w => !skip.contains w.rank)) with
      | none => (s, none)
      | some (.thread r u since) =>
          if s.ringFree r then State.grants (s.resumeRing r) skip fuel
          else State.grants s ((Wanter.thread r u since).rank :: skip) fuel
      | some (.stage u) =>
          let free := s.freeFor (u.j, u.i)
          if u.rc.replays && u.rc.st == .ready && (s.plannedGrants u.rc).length < u.n.rmin then
            State.grants (s.mismatch u.j u.i) skip fuel
          else if u.rc.st == .ready && free.length < u.n.rmin then (s, some (u.j, u.i))
          else if !s.anyFree then (s, none)
          else
            let k := min (s.want u) free.length
            let rs := if u.rc.replays then (s.plannedGrants u.rc).take (s.want u) else s.chooseRings u free k
            let rs := if u.rc.st == .ready && rs.any (fun r => !free.contains r) then []
              else rs.takeWhile (fun r => free.contains r)
            if rs.isEmpty then State.grants s ((Wanter.stage u).rank :: skip) fuel
            else State.grants (s.grant u rs) skip fuel

/-- Reservations of stages that are no longer ready lapse. -/
def State.lapse (s : State) : State :=
  { s with rings := s.rings.map (fun e => match e.2.reserved with
    | some (j, i) => if (s.recd j i).st == .ready then e else (e.1, { e.2 with reserved := none })
    | none => e) }

/-- Running stages that have no thread left end (R117). -/
def State.endStages (s : State) : State :=
  s.stages.foldl (fun s u =>
    if u.rc.st != .running || 0 < s.held u then s
    else
      let q := s.queueOf (s.job u.j).key u.n.inq
      if !u.n.hasin || (q.2.2 && q.1 == 0) then s.finishLaunch u.j u.i 0 else s) s

/-- Parks that a replay has recorded. -/
def State.replayParks (s : State) : State :=
  s.stages.foldl (fun s u => match u.rc.replays, s.nextPlanned u.rc with
    | true, some (4, r) =>
        if (s.ring r).runs u.j u.i && (s.ring r).parked.isNone && s.parkable r then s.parkRing r (u.j, u.i) else s
    | _, _ => s) s

/-- Held edges of idle records, and reports, that waited for the host. -/
def State.catchUp (s : State) : State :=
  let s := (s.jobs.filter (fun e => e.2.st == .open_)).foldl (fun s e =>
    (e.2.recs.filter (fun r => r.2.st == .idle && 0 < r.2.held)).foldl (fun s r => s.applyHeld e.1 r.1 16) s) s
  s.flushReports

/-- RING_ASSIGNMENT (R120), `us` microseconds after the last, once the boot has made the scheduler ready (R28). (DESIGN CHOICE: log 42, 114) -/
def execRingAssignment (us : Nat) (s : State) : Out :=
  if s.dev.bstep < 3 then .next s
  else
  let s := ((s.catchUp.lapse.ageWaits us).ageStages us).replayParks
  let supply := (s.stages.map (fun u => s.want u)).sum
  let s := (s.stages.foldl State.yieldStage (s, supply)).1
  let r := s.grants [] 1024
  let s := r.1.endStages
  let s := s.stages.foldl (fun s u =>
    let mine := r.2 == some (u.j, u.i)
    s.setRec u.j u.i { s.recd u.j u.i with
      resv := if mine then some (match u.rc.resv with
        | some n => n + us
        | none => 0) else none }) s
  .next (match r.2 with
    | some (j, i) =>
        if 50 ≤ (s.recd j i).resv.getD 0 then s.after (.park (Fin.ofNat 256 j) (Fin.ofNat 4096 i)) else s.unstop none
    | none => s.unstop none)

end Sys2Proof.Machine
end

