-- ==== Sys2Proof/Machine/Launch.lean ====
section
/-! DEFINITION. Launch and queue instructions (R434–R437): `arm`, `qpush`, `qpop`, `exit`; and `ssync` (R216, R354–R357). -/

namespace Sys2Proof.Machine

open Sys2Proof

/-! ### `arm` (R435) -/

/-- `arm`. -/
def execArm (o : DuoF) (s : State) : Out :=
  .next (threadOnly s (fun s => noRegion s (fun s => sticky s (fun s => guarded o.gd 8 s (fun s => commitPoint s (fun s =>
    if s.unacked s.cur 5 then s.waitFor .release
    else
      let s := s.softBackAll s.cur
      match s.myRing.thread with
      | none => (s.setX o.d 1).adv 8
      | some t =>
          let i := (s.x o.a).toNat
          if (s.job t.job).poolCount ≤ i then (s.setX o.d 1).adv 8
          else s.together t.job i 2 (fun s =>
            if (s.recd t.job i).st != .idle then (s.setX o.d 2).adv 8
            else match s.accept t.job i false with
              | .wait s => s.waitFor .oreq
              | .lost s | .done s => (s.setX o.d 0).adv 8)))))))

/-! ### Queues (R113, R114, R436) -/

/-- A queue's descriptor as an event reads it. -/
structure QDesc where
  base : Nat
  sz : Nat
  cap : Nat
  pushed : Nat
  popped : Nat
  closed : Bool
  deriving DecidableEq, Repr

/-- Occupancy. -/
def QDesc.occ (q : QDesc) : Nat := (q.pushed + 2 ^ 64 - q.popped) % 2 ^ 64

/-- Address of slot `n`. -/
def QDesc.slot (q : QDesc) (n : Nat) : Nat := (q.base + q.sz * (n % q.cap)) % 2 ^ 64

/-- A descriptor from its words. -/
def QDesc.ofWords : List Nat → QDesc
  | [base, cfg, pushed, popped, w] =>
      { base := base, sz := 8 * fld cfg 8 8, cap := 2 ^ fld cfg 0 5, pushed := pushed, popped := popped, closed := natBit w 0 }
  | _ => { base := 0, sz := 0, cap := 1, pushed := 0, popped := 0, closed := false }

/-- Addresses of a descriptor's words. -/
def descWords (d : Nat) : List Nat := [d, d + 8, d + 0x10, d + 0x18, d + 0x20]

/-- Translate a descriptor with acc 2: a page that is not coherent takes a class fault. (DEDUCED: log 66) -/
def State.placeDesc (s : State) (d : Nat) : Res :=
  match s.place s.who 2 d 8 with
  | (s, .error f) => .flt f s
  | (s, .ok (.mem a)) => if a.cls = 0 then .ok 0 s else .flt { cause := 8, acc := 2, va := d, pa := a.pa } s
  | (s, .ok (.held x)) => .wait x s
  | (s, .ok _) => .flt { cause := 8, acc := 2, va := d } s

/-- What a part that is about to be accessed waits for: its walk, the host, or a thread that is parked where it goes. -/
def State.partNeed (s : State) (w : Who) (acc n : Nat) : Place → Option Wait × State
  | .mem m => s.available m.tier m.pa n (acc != 0)
  | .io pa key => s.ioNeed pa key n (acc != 0)
  | .pad t _ => (match s.gate w.key w.origin t with
      | .refuse => some .oreq
      | _ => none, s)
  | .held x => (some x, s)

/-- Parts that are about to be accessed: none faults, and none waits. -/
def State.readyTo (s : State) (w : Who) (acc va n : Nat) : Res :=
  let r := s.placeAll w acc (s.partsFor w va n)
  let q := r.2.1.foldl (fun (a : Option Wait × State) p =>
    let q := a.2.partNeed w acc p.2.1 p.2.2
    (a.1.or q.1, q.2)) (none, r.1)
  match heldBy r.2.1, r.2.2, q.1 with
  | some x, _, _ => .wait x r.1
  | none, some f, _ => .flt f r.1
  | none, none, some x => .wait x q.2
  | none, none, none => .ok 0 q.2

/-- The checks before an event, and the descriptor it then reads at its home. -/
def queueEvent (d : Nat) (s : State) (k : QDesc → State → State) : State :=
  match s.placeDesc d with
  | .flt f s => faultTrap [f] s
  | .wait w s => s.waitFor w
  | .err s => s
  | .ok _ s =>
      match s.canWrite s.key (descWords d) with
      | .wait s => s.clearSched.waitFor .oreq
      | .flt va s => faultTrap [{ cause := 3, acc := 2, va := va }] s
      | .ok _ s =>
          match s.getWords s.key (descWords d) with
          | .ok ws s => k (QDesc.ofWords ws) s.clearSched
          | .wait s => s.clearSched.waitFor .oreq
          | .flt _ s => s.clearSched.detected s.cur s.pc

/-- An access of a slot, by the scheduler's path: an io page takes one aligned word and no more (R193). -/
def slotOk (a n : Nat) (s : State) (k : State → State) : State :=
  if s.touchesIo (schedWho s.key) a n && (a % n != 0 || 8 < n) then alignTrap (wd a) s.clearSched else k s

/-- The end of a step of a queue event: what it meets leaves the queue as it was. -/
def Res.event (r : Res) (k : Nat → State → State) : State :=
  match r with
  | .ok v s => k v s
  | .flt f s => faultTrap [f] s.clearSched
  | .wait _ s => s.clearSched.waitFor .oreq
  | .err s => s.clearSched.detected s.cur s.pc

/-- The event of `qpush`: slot and `pushed` are written at once. The item is read once, when nothing is left to wait for. -/
def pushEvent (o : QPushF) (d b : Nat) (q : QDesc) (s : State) : State :=
  if q.occ = q.cap then s.waitFor (.qpush o)
  else
    let w := schedWho s.key
    let a := q.slot q.pushed
    slotOk a q.sz s (fun s => (s.readyTo w 1 a q.sz).event (fun _ s =>
      (s.loadAt s.who b q.sz false).finish (fun data s => (s.storeAt w a q.sz data).event (fun _ s =>
        (((s.putWord s.key (d + 0x10) (q.pushed + 1)).clearSched).wakePops s.key).adv 8))))

/-- `qpush`. (DEDUCED: log 66) -/
def execQpush (o : QPushF) (s : State) : Out :=
  let d := (s.x o.a).toNat
  .next (threadOnly s (fun s => noRegion s (fun s => sticky s (fun s => guarded o.gd 8 s (fun s =>
    if d % 128 != 0 then alignTrap (wd d) s
    else commitPoint s (queueEvent d · (fun q s =>
      let b := (s.x o.b).toNat
      s.screen [b] q.sz false false (fun s => (s.readyTo s.who 0 b q.sz).finish (fun _ s =>
        if s.unacked s.cur 5 then s.waitFor .release
        else pushEvent o d b q (s.softBackAll s.cur))))))))))

/-- A `qpop` on this descriptor is a yield point: the thread's own stage takes its input there, and it runs no forked
loop (R119). -/
def State.yieldPoint (s : State) (d : Nat) : Bool :=
  match s.myRing.thread with
  | none => false
  | some t =>
      s.myRing.forked.isNone && (match (s.recd t.job t.record).snap with
        | some n => n.hasin && n.inq == d
        | none => false)

/-- The event of `qpop`: `popped` advances when the item has been taken. -/
def popEvent (o : TriF) (d b : Nat) (q : QDesc) (s : State) : State :=
  let fin (res : Word) (s : State) : State := ((s.softAcquire s.cur).setX o.d res).adv 8
  if q.occ = 0 then
    (if q.closed then fin 1 s else s.waitFor (.qpop o 0 (s.yieldPoint d)))
  else
    let a := q.slot q.popped
    slotOk a q.sz s (fun s => (s.loadAt (schedWho s.key) a q.sz true).event (fun data s =>
      (s.storeAt s.who b q.sz data).finish (fun _ s =>
        fin 0 (((s.putWord s.key (d + 0x18) (q.popped + 1)).clearSched).wakePushes s.key))))

/-- `qpop`. (DEDUCED: log 66) -/
def execQpop (o : TriF) (s : State) : Out :=
  let d := (s.x o.a).toNat
  .next (threadOnly s (fun s => noRegion s (fun s => guarded o.gd 8 s (fun s =>
    if d % 128 != 0 then alignTrap (wd d) s
    else commitPoint s (queueEvent d · (fun q s =>
      let b := (s.x o.b).toNat
      s.screen [b] q.sz false false (fun s =>
        (s.readyTo s.who 1 b q.sz).finish (fun _ s => popEvent o d b q s))))))))

/-- The queue that a waiting core's instruction names, as last observed. -/
def State.waitedQueue (s : State) (c : Nat) (a : Reg) : Option QDesc :=
  let d := ((s.core c).getX a).toNat
  let key := s.keyOf c
  match (descWords d).map (s.peek key) with
  | [some b, some cfg, some pu, some po, some w] => some (QDesc.ofWords [b, cfg, pu, po, w])
  | _ => none

/-- A waiting core executes its instruction again. -/
def State.goOn (s : State) (c : Nat) : State := (s.setCore c { s.core c with wait := .none }).andThen (.core c)

/-- QPUSH_EVENT (R436): there is room. (DEDUCED: log 66) -/
def execQpushEvent (core : Fin 4096) (s : State) : Out :=
  let c := core.val
  .next (match (s.core c).wait with
    | .qpush o =>
        (match s.waitedQueue c o.a with
         | some q => if q.occ = q.cap then s else s.goOn c
         | none => s.goOn c)
    | _ => s)

/-- QPOP_EVENT (R436): there is a slot, or the queue is closed. -/
def execQpopEvent (core : Fin 4096) (s : State) : Out :=
  let c := core.val
  .next (match (s.core c).wait with
    | .qpop o _ _ =>
        (match s.waitedQueue c o.a with
         | some q => if q.occ = 0 && !q.closed then s else s.goOn c
         | none => s.goOn c)
    | _ => s)

/-! ### `exit` (R437) -/

/-- Close every open region of the executing core. -/
def State.closeRegions (s : State) : State := s.me.regions.foldl (fun s _ => s.closeRegion s.cur) s

/-- The thread ends (R116, R117). -/
def State.endMyThread (s : State) : State :=
  let key := s.key
  let r := s.cur / 16
  ((s.endRing r).endStages).syncNote key

/-- `exit`. -/
def execExit (o : ExitF) (s : State) : Out :=
  .next (threadOnly s (fun s => sticky s (fun s => guarded o.gd 8 s (fun s => commitPoint s (fun s =>
    let s := s.closeRegions
    if s.inChunk then (s.waitFor (.leave s.pc none)).after (.loopExit (Fin.ofNat 4096 s.cur))
    else if s.copiesOf s.cur then s.waitFor (.exit o)
    else s.endMyThread)))))

/-- DRAIN_COMPLETE (R432, R437): a `drain` that waits returns, and an `exit` that waits ends the thread; both have taken the sticky faults
before they waited. -/
def execDrainComplete (core : Fin 4096) (s : State) : Out :=
  let c := core.val
  let k := s.core c
  let on : State := { s with cur := c }.waitFor .none
  .next (if k.stopping.isSome then s else match k.wait with
    | .drain o =>
        if k.drained (Fin.ofNat 4 o.a.val) then
          { ((on.softAcquire c).adv 8).countMe with cur := s.cur }.andThen (.core c)
        else s
    | .exit _ => if s.copiesOf c then s else { on.endMyThread with cur := s.cur }
    | _ => s)

/-! ### `ssync` (R216) -/

/-- Index of a scope among a thread's counts. -/
def syncIx (sc : Nat) : Fin 3 := Fin.ofNat 3 (sc - 3)

/-- Count an arrival. (DEDUCED: log 45) -/
def Thread.arrive (t : Thread) (sc : Nat) (pc : Word) : Thread :=
  let k := t.syncs.get (syncIx sc) + 1
  { t with syncs := t.syncs.set (syncIx sc).val k (syncIx sc).isLt, arrived := some (sc, k, pc) }

/-- Whether a thread has counted this `ssync`. -/
def Thread.at_ (t : Thread) (sc : Nat) (pc : Word) : Bool :=
  match t.arrived with
  | some (a, _, p) => a == sc && p == pc
  | none => false

/-- `ssync`: it arrives, and waits for its episode. -/
def execSsync (o : ScopeF) (s : State) : Out :=
  let sc := o.sc.val
  .next (threadOnly s (fun s => operandOk (3 ≤ sc && sc ≤ 5) s (fun s => wideSync true s (fun s => sticky s (fun s =>
    commitPoint s (fun s =>
      match s.myRing.thread with
      | none => s.adv 8
      | some t =>
          let s := s.softBackAll s.cur
          let t := if t.at_ sc s.pc then t else t.arrive sc s.pc
          let s := s.setMyRing { s.myRing with thread := some t }
          let k := match t.arrived with
            | some (_, k, _) => k
            | none => 0
          (s.waitFor (.ssync sc k)).after
            (.ssyncComplete (Fin.ofNat 256 t.job) (Fin.ofNat 4096 t.record) o.sc (unitOf sc (s.cur / 16)))))))))

/-- The rings with a participant of a unit. -/
def State.participants (s : State) (j i sc unit : Nat) : List Nat :=
  (s.ringsOf j i).filter (fun r => unitOf sc r == unit)

/-- Every participant has reached episode `k`; a parked one has not (R216). (DEDUCED: log 45) -/
def State.allArrived (s : State) (j i sc unit k : Nat) : Bool :=
  let rs := s.participants j i sc unit
  !rs.isEmpty && ((s.parkedOf j i).all (fun r => unitOf sc r != unit)) &&
    rs.all (fun r => match (s.ring r).thread with
      | some t => k ≤ t.syncs.get (syncIx sc)
      | none => true)

/-- A packet that a participant has sent. -/
def Pkt.sentBy (p : Pkt) (rs : List Nat) : Bool := p.origin.isNone && rs.contains (p.score / 16) && p.unfinished

/-- A sand packet whose window is open at its receiver inside the package. -/
def Pkt.windowOpen (p : Pkt) : Bool := p.sand && p.open_ && p.phase == .fly && p.away.isNone

/-- Messages and sand packets that participants have sent inside the package and that are not yet appended or closed; sand packets
count until their window is open. (DEDUCED: log 92) -/
def State.unsent (s : State) (rs : List Nat) : Bool :=
  s.fab.pkts.any (fun p => p.sentBy rs && p.away.isNone && (p.kind == 7 || p.sand) && !p.windowOpen)

/-- Close the sand packets of participants early (R52). -/
def State.closeWindows (s : State) (rs : List Nat) : State :=
  (s.fab.pkts.filter (fun p => p.sentBy rs && p.windowOpen)).foldl
    (fun s p => match s.pkt p.pid with
      | some p => s.closeSand p
      | none => s) s

/-- Count the `ssync` that a core has completed. -/
def Ring.synced (g : Ring) (slot : Fin 16) : Ring :=
  let g : Ring := { g with thread := g.thread.map (fun (t : Thread) => { t with arrived := none }) }
  match g.chunkAt slot with
  | some k => g.setChunk { k with count := k.count + 1 }
  | none => { g with thread := g.thread.map (fun (t : Thread) => { t with pos := t.pos + 1 }) }

/-- A participant that waits in an episode of a scope that has completed goes on. (DEDUCED: log 45) -/
def State.passSync (s : State) (r sc done : Nat) : State :=
  let c := coreAt r (s.ring r).head
  match (s.core c).wait with
  | .ssync sc' k =>
      if sc' = sc ∧ k ≤ done then
        let s := s.softAcquire c
        let s := s.setCore c { s.core c with wait := .none, pc := (s.core c).pc + 8 }
        s.setRing r ((s.ring r).synced (slotOf c))
      else s
  | _ => s

/-- SSYNC_COMPLETE (R216). -/
def execSsyncComplete (j : Fin 256) (r : Fin 4096) (sc : Fin 16) (unit : Nat) (s : State) : Out :=
  let c := s.recd j.val r.val
  let key := epKey sc.val unit
  let done := Table.get c.episodes key 0
  let rs := s.participants j.val r.val sc.val unit
  .next (
    if s.allArrived j.val r.val sc.val unit (done + 1) && !s.unsent rs then
      let s := s.closeWindows rs
      let s := s.setRec j.val r.val
        { s.recd j.val r.val with episodes := Table.put (s.recd j.val r.val).episodes key (done + 1) }
      rs.foldl (fun s r => s.passSync r sc.val (done + 1)) s
    else rs.foldl (fun s r => s.passSync r sc.val done) s)

end Sys2Proof.Machine
end

