-- ==== Sys2Proof/Machine/Mailbox.lean ====
section
/-! DEFINITION. The host interface: reading BAR0 (R84–R87, R95, R100–R103), doorbells (R96), the mailbox (R86–R89), SPDM
(R90) and TLB invalidation (R177). -/

namespace Sys2Proof.Machine

open Sys2Proof

/-! ### Reading BAR0 -/

/-- MBX_CTL (R86): go reads as busy. -/
def Dev.mbxCtl (d : Dev) : Word :=
  wd (bitN d.mbxOvr * 65536 + d.mbxRes % 256 * 256 + bitN d.mbxBusy * 2 + bitN d.mbxBusy)

/-- A word of an error log entry (R101). -/
def Elog.word (e : Elog) (i : Nat) : Word :=
  match i with
  | 0 => wd e.time
  | 1 => wd (e.key % 65536 * 2 ^ 48 + e.core % 4096 * 2 ^ 36 + e.code % 65536 * 65536 + e.src % 256 * 256 + e.sev % 256)
  | 2 => wd e.addr
  | i => e.detail.getD (i - 3) 0

/-- JOB_STAT (R95). -/
def Job.stat (k : Job) : Word :=
  let st := match k.st with
    | .closed => 0
    | .open_ => 1
    | .closing => 2
  wd (st * 2 ^ 62 + k.acc % 2 ^ 24 * 2 ^ 24 + k.rej % 2 ^ 24)

/-- CAP_STAT (R103): used counts units of 64 bytes, the last one begun. (DESIGN CHOICE: log 118) -/
def Job.capStat (k : Job) : Word :=
  wd ((k.capUsed + 63) / 64 % 2 ^ 40 * 2 ^ 24 + bitsW [(k.capMism, 2), (k.capOvf, 1), (k.capAct, 0)])

/-- A register of a job page (R95, R102); a write-only one reads as zero (R11). -/
def Job.reg (k : Job) (o : Nat) : Option Word :=
  match o with
  | 0x000 => some 0
  | 0x008 => some k.stat
  | 0x010 => some (wd k.capMode)
  | 0x018 => some (wd k.capBase)
  | 0x020 => some (wd k.capSize)
  | 0x028 => some k.capStat
  | _ => none

/-- The aligned word of BAR0 at an offset as link `l` reads it; none for an unlisted offset. -/
def State.bar0Word (s : State) (l o : Nat) : Option Word :=
  let d := s.dev
  if o % 8 ≠ 0 then none
  else if o = 0x0000 then some (s.devStat l)
  else if o = 0x1000 then some d.mbxCtl
  else if o = 0x1008 then some (wd d.mbxCmd)
  else if 0x1100 ≤ o ∧ o < 0x1200 then some (d.mbxIn.toList.getD ((o - 0x1100) / 8) 0)
  else if 0x1200 ≤ o ∧ o < 0x1300 then some (d.mbxOut.toList.getD ((o - 0x1200) / 8) 0)
  else if o = 0x2000 then some (wd d.elogHead)
  else if o = 0x2008 then some (wd d.elogTail)
  else if o = 0x2010 then some (wd d.elogLost)
  else if o = 0x2018 then some (wd (bitsW [(d.mbxIe, 1), (d.elogIe, 0)]))
  else if 0x10000 ≤ o ∧ o < 0x20000 then
    some (match Table.get? d.elog ((o - 0x10000) / 64) with
      | some e => e.word (o % 64 / 8)
      | none => 0)
  else if 0x100000 ≤ o ∧ o < 0x200000 then (s.job ((o - 0x100000) / 0x1000)).reg (o % 0x1000)
  else if 0x200000 ≤ o ∧ o < 0x210000 then s.moduleReg (o - 0x200000)
  else if 0x300000 ≤ o ∧ o < 0x301000 then
    some (d.msixWord l ((o - 0x300000) / 8))
  else if 0x301000 ≤ o ∧ o < 0x301020 then some (wd (fld (d.pba l).toNat ((o - 0x301000) * 8) 64))
  else none

/-- What a read of `n` bytes of BAR0 on link `l` brings; none for another size or alignment and for an unlisted offset, which receive an
Unsupported Request (R84). The MSI-X table and its pending bits are read by 4 or 8 bytes, as PCIe has it. (PRESUMED: log 80) -/
def State.bar0 (s : State) (l o n : Nat) : Option Word :=
  if n = 8 then s.bar0Word l o
  else if n = 4 ∧ 0x300000 ≤ o ∧ o < 0x302000 ∧ o % 4 = 0 then
    (s.bar0Word l (o / 8 * 8)).map (fun w => wd (fld w.toNat (8 * (o % 8)) 32))
  else none

/-- The completion of a host's read of BAR0 on a link where the host interface is open: the data, or an Unsupported Request (R84). -/
def State.readBar0 (s : State) (l o n : Nat) : State :=
  if !s.dev.hostOpen l then s
  else match s.bar0 l o n with
    | some w => s.emit (.readData w)
    | none => s.emit .unsupported

/-! ### Doorbells (R96) -/

/-- DOORBELL_WRITE (R76, R96), once the host interface is open. -/
def execDoorbellWrite (b : BellPath) (w : BitVec 64) (s : State) : Out :=
  .next (if s.dev.hostOpen b.link.val then s.doorbell b.link.val b.job.val w else s)

/-- DOORBELL_SERVE: the oldest entry of the job's queue (R96); the next follows once it has left the queue. -/
def execDoorbellServe (j : Fin 256) (s : State) : Out :=
  let n := (s.job j.val).bells.length
  let s := s.serveBell j.val
  .next (if (s.job j.val).bells.length < n && (s.job j.val).bells.length != 0 then s.after (.doorbellServe j) else s)

/-! ### Mailbox commands (R86–R89) -/

/-- Perform a mailbox command that has been started; its answer is a result and its response words. Command 0 alone is
performed while attestation is required. (DEDUCED: log 85) -/
def State.command (s : State) (code : Nat) (k : State → State) : State :=
  let d := s.dev
  if !d.mbxBusy || d.mbxCmd != code || d.mbxPost.isSome then s
  else if code != 0 && d.attReq then s.post 5 []
  else k s

/-- A word of the command's payload. (DEDUCED: log 85) -/
def State.operand (s : State) (i : Nat) : Nat := (s.dev.mbxIn.toList.getD i 0).toNat

/-- STATUS. -/
def execStatus (s : State) : Out :=
  .next (s.command 0 (fun s => s.post 0 [s.devStat s.dev.mbxLink, wd s.openJobs.length]))

/-- The pool base is mapped as R88 asks. (DEDUCED: log 86) -/
def State.poolOk (s : State) (root key base : Nat) : Bool :=
  base % 2 ^ 21 == 0 && base < 2 ^ 57 && (match s.walk root key base with
    | .ok l => l.size == 2 ^ 21 && l.r && l.w && l.cls == 0 && l.tier ≤ 1
    | .error _ => false)

/-- The operands of JOB_OPEN that R87 and R88 refuse with res 2. (DEDUCED: log 86) -/
def State.openOperands (s : State) : Bool :=
  let w0 := s.operand 0
  let key := fld w0 8 16
  let root := s.operand 1
  fld w0 27 37 == 0 && fld (s.operand 3) 13 51 == 0 && fld (s.operand 4) 24 40 == 0 &&
    s.dev.link (fld w0 24 3) == some .full && 1 ≤ fld (s.operand 3) 0 13 && fld (s.operand 3) 0 13 ≤ 4096 &&
    key != 0 && root % 4096 == 0 && inModule root 4096 && s.poolOk root key (s.operand 2)

/-- The first free entry of a membership table. -/
def freeMember (t : Table Word) (n : Nat) : Option Nat :=
  (List.range 64).find? (fun i => !(Table.get t (64 * n + i) 0).getLsbD 63)

/-- The UALink ports of a mask. -/
def portsOf (m : BitVec 24) : List Nat := bitsSet m

/-- Every membership table that a port mask names has a free entry. -/
def Fab.roomFor (f : Fab) (m : BitVec 24) : Bool :=
  (List.range 256).all (fun n => (freeMember f.lmtN n).isSome) &&
    (portsOf m).all (fun p => (freeMember f.lmtP p).isSome)

/-- A membership entry. -/
def memberWord (key : Nat) : Word := wd (2 ^ 63 + key % 65536)

/-- Write a key into one free entry of each table. -/
def addMember (t : Table Word) (key : Nat) (ns : List Nat) : Table Word :=
  ns.foldl (fun t n => match freeMember t n with
    | some i => Table.put t (64 * n + i) (memberWord key)
    | none => t) t

/-- Clear a key's entries. -/
def dropMember (t : Table Word) (key : Nat) : Table Word := t.filter (fun e => e.2 != memberWord key)

/-- JOB_OPEN (R88): its checks, then all of its writes. (DEDUCED: log 85, 86) -/
def execJobOpen (s : State) : Out :=
  .next (s.command 1 (fun s =>
    let w0 := s.operand 0
    let j := fld w0 0 8
    let key := fld w0 8 16
    let ports : BitVec 24 := BitVec.ofNat 24 (s.operand 4)
    if !s.openOperands then s.post 2 []
    else if (s.job j).st != .closed then s.post 6 []
    else if s.jobs.any (fun e => e.2.st != .closed && e.2.key == key) then s.post 7 []
    else if !s.fab.roomFor ports then s.post 3 []
    else
      let k := s.job j
      let s := s.setJob j { k with
        st := .open_, key := key, link := fld w0 24 3, root := s.operand 1, poolBase := s.operand 2,
        poolCount := fld (s.operand 3) 0 13, ports := ports, bells := [], recs := [] }
      let f : Fab := { s.fab with
        lmtN := addMember s.fab.lmtN key (List.range 256), lmtP := addMember s.fab.lmtP key (portsOf ports) }
      let rings := s.rings.map (fun (e : Nat × Ring) => if e.2.key = key then (e.1, { e.2 with key := 0 }) else e)
      { s with fab := f, rings := rings }.post 0 []))

/-- JOB_CLOSE (R89), steps 1 to 3; JOB_CLOSE_DRAIN_DONE posts its result. (DEDUCED: log 92) -/
def execJobClose (s : State) : Out :=
  .next (s.command 2 (fun s =>
    let j := fld (s.operand 0) 0 8
    if fld (s.operand 0) 8 56 != 0 then s.post 2 []
    else if (s.job j).st != .open_ then s.post 6 []
    else s.beginClose j 4))

/-- JOB_CLOSE_DRAIN_DONE (R89 steps 4 and 5), once no copy or message of the job is in flight and its launches have
ended. (DEDUCED: log 92) -/
def execJobCloseDrainDone (j : Fin 256) (s : State) : Out :=
  let k := s.job j.val
  .next (
    if k.st != .closing || !s.drained k.key || k.recs.any (fun e => e.2.st != .idle) then s
    else
      let s := s.setJob j.val { k with st := .closed }
      let s := { s with fab := { s.fab with
        lmtN := dropMember s.fab.lmtN k.key, lmtP := dropMember s.fab.lmtP k.key } }
      let s := s.finishDebug
      if s.dev.mbxBusy && s.dev.mbxCmd == 2 && s.dev.mbxPost.isNone && fld (s.operand 0) 0 8 == j.val then s.post 0 []
      else s)

/-- An SPDM session is open on the port the command came through. -/
def State.inSession (s : State) : Bool := (s.dev.spdm.toList.getD s.dev.mbxLink {}).session

/-- Words of the payload. -/
def State.wrapped (s : State) (n : Nat) : List Word := (List.range n).map (fun i => wd (s.operand (i + 1)))

/-- A key that a command brings wrapped in words of its payload, unwrapped under the key of the present session on its port (R87). -/
def State.unwrapped (s : State) (n : Nat) : Option Nat :=
  Config.unwrap (s.dev.spdm.toList.getD s.dev.mbxLink {}).kek (s.wrapped n)

/-- The name of unwrapped key material, apart from generated keys and from host memory. -/
def materialOf (m : Nat) : Nat := 2 * m + 3

/-- KEY_INSTALL (R29, R30). (DEDUCED: log 85) -/
def execKeyInstall (s : State) : Out :=
  .next (s.command 3 (fun s =>
    let id := fld (s.operand 0) 0 12
    if !s.inSession then s.post 5 []
    else if fld (s.operand 0) 12 52 != 0 || id == 0 then s.post 2 []
    else match s.unwrapped 9 with
      | none => s.post 4 []
      | some m => (s.putKey id (materialOf m)).post 0 []))

/-- KEY_CLEAR. (DESIGN CHOICE: log 130) -/
def execKeyClear (s : State) : Out :=
  .next (s.command 4 (fun s =>
    let id := fld (s.operand 0) 0 12
    if fld (s.operand 0) 12 52 != 0 || id == 0 then s.post 2 []
    else { s with dev := { s.dev with keys := Table.erase s.dev.keys id } }.post 0 []))

/-- LINK_KEY (R36): a pending key; a halted port sends again at once. -/
def execLinkKey (s : State) : Out :=
  .next (s.command 5 (fun s =>
    let w := s.operand 0
    let p := fld w 0 5
    if !s.inSession then s.post 5 []
    else if fld w 9 55 != 0 || fld w 5 3 != 0 || 24 ≤ p then s.post 2 []
    else match s.unwrapped 5 with
      | none => s.post 4 []
      | some m =>
          let u := s.dev.port p
          if natBit w 8 then
            { s with dev := s.dev.setPort p { u with rxPend := some (materialOf m) } }.post 0 []
          else
            let s := { s with dev := s.dev.setPort p { u with txPend := some (materialOf m) } }
            (u.queue.foldl (fun s _ => s.after (.ualinkFlitTransmit (Fin.ofNat 24 p))) s).post 0 []))

/-- A command's result is posted: busy falls and vector 1 is raised (R86). -/
def State.postNow (s : State) (res : Nat) (ws : List Word) : State :=
  let s := { s with dev := { s.dev with mbxRes := res, mbxOut := responseWords ws, mbxBusy := false, mbxPost := none } }
  if s.dev.mbxIe then s.raiseAll 1 else s

/-- WARM_RESET (R27): result 0 is posted, then the module resets; where the rerun boot chain stops is not the command's. (DESIGN CHOICE: log 88) -/
def execWarmReset (s : State) : Out :=
  .next (s.command 6 (fun s =>
    let b : BootReport := { failed := (Config.bootFail s.free).map (fun e => (e.1.val + 2, e.2)), selfTest := [] }
    ((s.postNow 0 []).drew).after (.moduleWarmReset b)))

/-- MBX_COMPLETION (R86). -/
def execMbxCompletion (s : State) : Out :=
  .next (match s.dev.mbxBusy, s.dev.mbxPost with
    | true, some (res, ws) => s.postNow res ws
    | _, _ => s)

/-! ### SPDM (R90) -/

/-- Code of the ERROR response to a request out of order. (PRESUMED: log 15) -/
def spdmError : Nat := 0x7F

/-- Answer an SPDM request on a trained link: in order it has its effect and its response, else an error. (DESIGN CHOICE: log 14) (PRESUMED: log 15) -/
def State.spdmAnswer (s : State) (l : Fin 8) (req : Nat) (inOrder : Spdm → Bool) (body : List Byte)
    (next : Spdm → Spdm) : State :=
  if !s.dev.hostOpen l.val then s
  else
    let p := s.dev.spdm.get l
    if inOrder p then
      { s with dev := { s.dev with spdm := s.dev.spdm.set l.val (next p) l.isLt } }.emit (.spdm l.val req body)
    else s.emit (.spdm l.val spdmError [])

/-- A request that an SPDM responder answers once algorithms are negotiated. (PRESUMED: log 15) -/
def Spdm.ready (p : Spdm) : Bool := p.version && p.caps && p.algs

/-- GET_VERSION starts the negotiation afresh. (PRESUMED: log 15) -/
def execGetVersion (l : Fin 8) (s : State) : Out :=
  .next (s.spdmAnswer l 0x84 (fun _ => true) (Config.spdmBody l.val 0x84)
    (fun p => { p with version := true, caps := false, algs := false, handshake := false }))

/-- GET_CAPABILITIES. -/
def execGetCapabilities (l : Fin 8) (s : State) : Out :=
  .next (s.spdmAnswer l 0xE1 (·.version) (Config.spdmBody l.val 0xE1) (fun p => { p with caps := true }))

/-- NEGOTIATE_ALGORITHMS. -/
def execNegotiateAlgorithms (l : Fin 8) (s : State) : Out :=
  .next (s.spdmAnswer l 0xE3 (fun p => p.version && p.caps) (Config.spdmBody l.val 0xE3) (fun p => { p with algs := true }))

/-- GET_DIGESTS. -/
def execGetDigests (l : Fin 8) (s : State) : Out :=
  .next (s.spdmAnswer l 0x81 Spdm.ready (Config.spdmBody l.val 0x81) id)

/-- GET_CERTIFICATE. -/
def execGetCertificate (l : Fin 8) (s : State) : Out :=
  .next (s.spdmAnswer l 0x82 Spdm.ready (Config.spdmBody l.val 0x82) id)

/-- An attestation that has succeeded on a link (R85). -/
def State.attested (s : State) (l : Fin 8) (ok : Bool) : State :=
  if ok && s.dev.hostOpen l.val && (s.dev.spdm.get l).ready then
    { s with dev := { s.dev with attReq := false } }
  else s

/-- CHALLENGE. -/
def execChallenge (l : Fin 8) (ok : Bool) (s : State) : Out :=
  .next ((s.attested l ok).spdmAnswer l 0x83 Spdm.ready (Config.spdmBody l.val 0x83) id)

/-- GET_MEASUREMENTS: the four images of the boot chain and DEV_STAT.dbg. -/
def execGetMeasurements (l : Fin 8) (signedOk : Bool) (s : State) : Out :=
  .next ((s.attested l signedOk).spdmAnswer l 0xE0 Spdm.ready (Config.measurements s.dev.meas s.dev.dbg) id)

/-- KEY_EXCHANGE. -/
def execKeyExchange (l : Fin 8) (s : State) : Out :=
  .next (s.spdmAnswer l 0xE4 Spdm.ready (Config.spdmBody l.val 0xE4) (fun p => { p with handshake := true }))

/-- FINISH: the session that KEY_EXCHANGE started is open, with keys of its own. (DESIGN CHOICE: log 13) -/
def execFinish (l : Fin 8) (ok : Bool) (s : State) : Out :=
  let t := s.spdmAnswer l 0xE5 (fun p => p.handshake && ok) (Config.spdmBody l.val 0xE5)
    (fun p => { p with handshake := false, session := true, kek := Config.freeNat s.free })
  .next (if s.dev.hostOpen l.val && (s.dev.spdm.get l).handshake && ok then t.drew else t)

/-- END_SESSION. -/
def execEndSession (l : Fin 8) (s : State) : Out :=
  .next (s.spdmAnswer l 0xEC (·.session) (Config.spdmBody l.val 0xEC) (fun p => { p with session := false }))

/-! ### TLB invalidation (R177) -/

/-- The entries that the present command matches: the page holding TLBI_VA at every page size, a key's, or all. -/
def State.tlbiHit (s : State) (l : Leaf) : Bool :=
  let va := s.tlbiVa.toNat / 4096 * 4096
  match s.tlbiOp with
  | 0 => l.key == s.tlbiKey && l.page ≤ va && va < l.page + l.size
  | 1 => l.key == s.tlbiKey
  | 2 => true
  | _ => false

/-- Remove matching entries from every TLB of the package, and let the command finish. (DESIGN CHOICE: log 32) -/
def State.tlbi (s : State) (op : Nat) : State :=
  if !s.tlbiGo || s.tlbiOp != op then s
  else
    { s with
      tlbiGone := (s.cores.flatMap (fun (e : Nat × Core) => e.2.tlb.filter s.tlbiHit) ++
        s.tlb2.flatMap (fun (e : Nat × List Leaf) => e.2.filter s.tlbiHit)).eraseDups,
      cores := s.cores.map (fun (e : Nat × Core) => (e.1, { e.2 with tlb := e.2.tlb.filter (fun l => !s.tlbiHit l) })),
      tlb2 := s.tlb2.map (fun (e : Nat × List Leaf) => (e.1, e.2.filter (fun l => !s.tlbiHit l))) }.after .tlbiDone

/-- TLBI_PAGE. -/
def execTlbiPage (s : State) : Out := .next (s.tlbi 0)

/-- TLBI_KEY. -/
def execTlbiKey (s : State) : Out := .next (s.tlbi 1)

/-- TLBI_ALL. -/
def execTlbiAll (s : State) : Out := .next (s.tlbi 2)

/-- TLBI_NOTHING: go clears at once. -/
def execTlbiNothing (s : State) : Out := .next (if s.tlbiOp = 3 then { s with tlbiGo := false } else s)

/-- No TLB holds an entry that the command matches. (DEDUCED: log 89) -/
def State.tlbiClean (s : State) : Bool :=
  s.cores.all (fun e => e.2.tlb.all (fun l => !s.tlbiHit l)) && s.tlb2.all (fun e => e.2.all (fun l => !s.tlbiHit l))

/-- A line lies in a page that a removed translation mapped. -/
def Leaf.covers (l : Leaf) (ln : Nat) : Bool := l.frame ≤ 128 * realLine ln && 128 * realLine ln < l.frame + l.size

/-- A core's accesses are translated under a key. -/
def State.usesKey (s : State) (c key : Nat) : Bool :=
  match (s.ring (c / 16)).thread with
  | some t => t.key == key
  | none => false

/-- Every access translated through a removed entry has been performed: no speculative chunk holds words that it has written in
such a page, and no chunk contributions to one. (DEDUCED: log 89) -/
def State.tlbiPerformed (s : State) : Bool :=
  s.tlbiGone.all (fun l => s.cores.all (fun e =>
    !s.usesKey e.1 l.key ||
      ((e.2.l1.all (fun v => v.2.sw == 0 || !l.covers v.1 || !(s.ring (e.1 / 16)).isSpec (slotOf e.1))) &&
        e.2.contribs.all (fun k => !l.covers (k.pa / 128)))))

/-- TLBI_DONE: go clears once every matching entry is gone and what was translated through one has been performed. (DEDUCED: log 89) -/
def execTlbiDone (s : State) : Out :=
  .next (if s.tlbiClean && s.tlbiPerformed then { s with tlbiGo := false, tlbiGone := [] } else s)

end Sys2Proof.Machine
end

