-- ==== Sys2Proof/Machine/VectorMemory.lean ====
section
/-! DEFINITION. Vector memory instructions and their partial completion (R236–R238, R389–R396). -/

namespace Sys2Proof.Machine

open Sys2Proof

/-! ### Running the elements -/

/-- Why the elements stopped before their end, faults aside. -/
inductive Halt where
  | no
  | wait (w : Wait)
  | err
  deriving DecidableEq, Repr

/-- Progress over elements: the state, the elements done with their values, the faults in ascending order. -/
structure VProg where
  s : State
  done : List (Nat × Nat) := []
  faults : List AccFault := []
  halt : Halt := .no
  deriving DecidableEq, Repr

/-- Nothing has stopped the elements. -/
def VProg.clean (p : VProg) : Bool := p.faults.isEmpty && p.halt == .no

/-- Add the answer of one access to the progress: element `i` is done with a value, faults, waits or meets an error. (DEDUCED: log 74) -/
def VProg.take (p : VProg) (i : Nat) : Res → VProg
  | .ok v s => { p with s := s, done := p.done ++ [(i, v)] }
  | .flt f s => { p with s := s, faults := p.faults ++ [{ f with elem := i }] }
  | .wait w s => { p with s := s, halt := .wait w }
  | .err s => { p with s := s, halt := .err }

/-- Perform elements of a load: every one that does not fault (R237), or, with `one`, those below the first fault. -/
def loadElems (one : Bool) (f : State → Nat → Res) : List Nat → VProg → VProg
  | [], p => p
  | i :: is, p =>
      let p := p.take i (f p.s i)
      if p.halt != .no || (one && !p.faults.isEmpty) then p else loadElems one f is p

/-- What translating accesses finds: their faults in order, and what the first of them waits for whose walk waits. -/
structure Placed where
  s : State
  faults : List AccFault := []
  held : Option Wait := none
  deriving DecidableEq, Repr

/-- Translate accesses of `n` bytes, each of an element at an address. -/
def placeElems (store : Bool) (n : Nat) : List (Nat × Nat) → State → Placed
  | [], s => { s := s }
  | (i, va) :: es, s =>
      let r := s.placeAll { s.who with elem := i } (bitN store) (partsOf va n)
      let t := placeElems store n es r.1
      { t with
        faults := (match r.2.2 with
          | some f => [{ f with elem := i }]
          | none => []) ++ t.faults
        held := (heldBy r.2.1).or t.held }

/-- Perform elements of a store: translate all first, then perform those below the lowest fault (R237). -/
def storeElems (n : Nat) (addr : Nat → Nat) (f : State → Nat → Res) (is : List Nat) (p : VProg) : VProg :=
  let t := placeElems true n (is.map (fun i => (i, addr i))) p.s
  let below := match t.faults with
    | e :: _ => is.filter (fun i => i < e.elem)
    | [] => is
  match t.held with
  | some x => { p with s := t.s, halt := .wait x }
  | none =>
      let q := loadElems true f below { p with s := t.s }
      if q.halt != .no then q else { q with faults := q.faults ++ t.faults }

/-- A window load of a core outside the ring. -/
def State.farPad (s : State) (va : Nat) : Bool := va / 2 ^ 56 % 256 == 0xFE && fld va 32 12 / 16 != s.cur / 16

/-- In a speculative chunk every access of an instruction is translated before one is performed: a fault is deferred, and an instruction
that loads from outside the ring is a commit point (R395). `first` says that only a fault of the lowest element counts (R238). -/
def specFirst (store first : Bool) (n : Nat) (es : List (Nat × Nat)) (s : State) (k : State → State) : State :=
  if !s.specThread then k s
  else if !store && es.any (fun e => s.farPad e.2) then s.waitFor .commitPoint
  else
    let t := placeElems store n es s
    if t.faults.any (fun f => !first || (es.head?.map (·.1)) == some f.elem) then deferTrap s
    else match t.held with
      | some x => t.s.waitFor x
      | none => k t.s

/-- The unfinished elements in the order of R237: on re-execution the lowest is performed first, alone. -/
def phases (replay : Bool) (is : List Nat) : List (List Nat) := if replay then [is.take 1, is.drop 1] else [is]

/-- Run phases until one stops. -/
def runPhases (f : List Nat → VProg → VProg) : List (List Nat) → VProg → VProg
  | [], p => p
  | ph :: phs, p => if p.clean then runPhases f phs (f ph p) else p

/-- The unfinished elements among `is` (R236). (DEDUCED: log 74) -/
def Core.unfinished (c : Core) (is : List Nat) : List Nat := is.filter (fun i => !c.vcm.getLsbD i)

/-- `vcm` after an instruction that stopped (R236): every element is done but those of `todo` that were not performed;
elements inactive or past `vl` count as done. -/
def Core.mark (c : Core) (todo : List Nat) (done : List (Nat × Nat)) : Core :=
  let left := todo.filter (fun i => !done.any (fun e => e.1 == i))
  { c with vcm := left.foldl (fun m i => setBit m i false) (BitVec.allOnes 512) }

/-- The instruction is re-executed after it has stopped on a fault, and not only gone on with after a wait (R237). (DEDUCED: log 74) -/
def Core.replays (c : Core) : Bool := c.vcm != 0 && !c.vcmOn

/-- End a vector memory instruction (R236, R237): `put` writes finished destination elements of `todo`. In a speculative
chunk an instruction that does not complete writes none (R156). One that waits goes on where it stands. (DEDUCED: log 74) -/
def finishMem (len : Nat) (todo : List Nat) (put : List (Nat × Nat) → Core → Core) (spec : Bool) (p : VProg) : State :=
  let s := p.s
  let part (s : State) : State := if spec then s else s.setMe ((put p.done s.me).mark todo p.done)
  match p.halt with
  | .err => s.detected s.cur s.pc
  | .wait w =>
      let on := !spec && (!s.me.replays || !p.done.isEmpty)
      let s := part s
      (s.setMe { s.me with vcmOn := on }).waitFor w
  | .no =>
      match p.faults with
      | [] => (s.setMe { put p.done s.me with vcm := 0 }).adv len
      | fs => if spec then deferTrap s else faultTrap fs (part s)

/-- The executing core's access of an element. -/
def State.whoAt (s : State) (i : Nat) : Who := { s.who with elem := i }

/-- A load of one element. -/
def loadElem (addr : Nat → Nat) (n : Nat) (fr : Bool) (s : State) (i : Nat) : Res := s.loadAt (s.whoAt i) (addr i) n fr

/-- A store of one element. -/
def storeElem (addr data : Nat → Nat) (n : Nat) (s : State) (i : Nat) : Res := s.storeAt (s.whoAt i) (addr i) n (data i)

/-- A vector load of elements of `w` bits (R392). -/
def vectorLoad (gd : Guard) (d : Reg) (w len : Nat) (fr : Bool) (addr : Core → Nat → Nat) (s : State) : State :=
  widthOk w s (fun s =>
    let c := s.me
    let todo := c.unfinished (c.actives gd)
    let n := w / 8
    s.regionOk ((c.actives gd).map (addr c)) n false (fun s => s.screen (todo.map (addr c)) n false false (fun s =>
      specFirst false false n (todo.map (fun i => (i, addr c i))) s (fun s =>
        finishMem len todo (fun es c => c.setV d (es.foldl (fun v e => setElem v w e.1 e.2) (c.getV d))) s.specThread
          (runPhases (loadElems false (loadElem (addr c) n fr)) (phases c.replays todo) { s := s })))))

/-- A vector store of elements of `w` bits (R392). -/
def vectorStore (gd : Guard) (w len : Nat) (addr data : Core → Nat → Nat) (s : State) : State :=
  widthOk w s (fun s =>
    let c := s.me
    let todo := c.unfinished (c.actives gd)
    let n := w / 8
    s.regionOk ((c.actives gd).map (addr c)) n true (fun s => s.screen (todo.map (addr c)) n false false (fun s =>
      specFirst true false n (todo.map (fun i => (i, addr c i))) s (fun s =>
        finishMem len todo (fun _ c => c) s.specThread
          (runPhases (storeElems n (addr c) (storeElem (addr c) (data c) n)) (phases c.replays todo) { s := s })))))

/-! ### Addresses (R390) -/

/-- Base plus offset, plus `i` steps, modulo 2^64. -/
def strided (base step : Word) (i : Nat) : Nat := (base + step * wd i).toNat

/-- Base plus a signed offset element. -/
def gathered (c : Core) (a offs : Reg) (w i : Nat) : Nat :=
  (c.getX a + ((BitVec.ofNat 64 (elemOf (c.getV offs) w i)).truncate w).signExtend 64).toNat

/-- `vld`. -/
def execVld (o : VLdF) (s : State) : Out :=
  let w := o.ty.width
  .next (vectorLoad o.gd o.d w 12 o.fr (fun c i => strided (c.getX o.a + sext32 o.imm) (wd (w / 8)) i) s)

/-- `vst`. -/
def execVst (o : VStF) (s : State) : Out :=
  let w := o.ty.width
  .next (vectorStore o.gd w 12 (fun c i => strided (c.getX o.a + sext32 o.imm) (wd (w / 8)) i)
    (fun c i => elemOf (c.getV o.b) w i) s)

/-- `vlds`. -/
def execVlds (o : VLdsF) (s : State) : Out :=
  .next (vectorLoad o.gd o.d o.ty.width 12 o.fr (fun c i => strided (c.getX o.a + sext32 o.imm) (c.getX o.b) i) s)

/-- `vsts`. -/
def execVsts (o : VStsF) (s : State) : Out :=
  let w := o.ty.width
  .next (vectorStore o.gd w 12 (fun c i => strided (c.getX o.a + sext32 o.imm) (c.getX o.c) i)
    (fun c i => elemOf (c.getV o.b) w i) s)

/-- `vgath`. -/
def execVgath (o : VGathF) (s : State) : Out :=
  let w := o.ty.width
  .next (vectorLoad o.gd o.d w 8 o.fr (fun c i => gathered c o.a o.b w i) s)

/-- `vscat`. -/
def execVscat (o : VScatF) (s : State) : Out :=
  let w := o.ty.width
  .next (vectorStore o.gd w 8 (fun c i => gathered c o.a o.c w i) (fun c i => elemOf (c.getV o.b) w i) s)

/-! ### First-fault and transposed loads -/

/-- End a first-fault load (R238): a fault above the lowest of `todo` shortens `vl`. -/
def finishFirstFault (len : Nat) (todo : List Nat) (put : List (Nat × Nat) → Core → Core) (spec : Bool) (p : VProg) :
    State :=
  match p.halt, p.faults with
  | .no, f :: _ =>
      if todo.head? = some f.elem then (if spec then deferTrap p.s else faultTrap [f] p.s)
      else (p.s.setMe { put p.done p.s.me with vcm := 0, vl := f.elem }).adv len
  | _, _ => finishMem len todo put spec p

/-- `vldff`. -/
def execVldff (o : VLdF) (s : State) : Out :=
  let w := o.ty.width
  .next (widthOk w s (fun s =>
    let c := s.me
    let todo := c.unfinished (c.actives o.gd)
    let n := w / 8
    let addr := fun i => strided (c.getX o.a + sext32 o.imm) (wd n) i
    s.regionOk ((c.actives o.gd).map addr) n false (fun s => s.screen (todo.map addr) n false false (fun s =>
      specFirst false true n (todo.map (fun i => (i, addr i))) s (fun s =>
        finishFirstFault 12 todo (fun es c => c.setV o.d (es.foldl (fun v e => setElem v w e.1 e.2) (c.getV o.d)))
          s.specThread (loadElems true (loadElem addr n o.fr) todo { s := s }))))))

/-- Load `m` accesses of `n` bytes from an address and join their values; the first fault ends it. -/
def State.loadRun (s : State) (w : Who) (fr : Bool) (n : Nat) : Nat → Nat → Nat → Nat → Res
  | 0, _, _, v => .ok v s
  | m + 1, a, o, v =>
      (s.loadAt w (a % 2 ^ 64) n fr).bind (fun x s => State.loadRun s w fr n m (a + n) (o + n) (v + x * 2 ^ (8 * o)))

/-- Put bits at a place of a register group, read as one string (R398). -/
def Core.setGroup (c : Core) (d : Reg) (lo w x : Nat) : Core :=
  let r : Reg := Fin.ofNat 64 (d.val + lo / 4096)
  c.setV r (setFld (c.getV r) (lo % 4096) w x)

/-- A row `j` of a transposed load: element `k` becomes tile element (k, j) (R394, R398). -/
def Core.setColumn (c : Core) (d : Reg) (w j row : Nat) : Core :=
  (List.range (256 / w)).foldl (fun c k => c.setGroup d (w * (128 * k + j)) w (fld row (w * k) w)) c

/-- `vldt` (R394): each row of 32 bytes is one element for partial completion. -/
def execVldt (o : VLdsF) (s : State) : Out :=
  let w := o.ty.width
  let n := if w = 4 then 1 else w / 8
  .next (operandOk (o.d.val % 8 == 0) s (fun s =>
    let c := s.me
    let todo := c.unfinished ((List.range 128).filter (c.active o.gd))
    let row := fun j => strided (c.getX o.a + sext32 o.imm) (c.getX o.b) j
    let parts (js : List Nat) : List (Nat × Nat) :=
      js.flatMap (fun j => (List.range (32 / n)).map (fun k => (j, (row j + n * k) % 2 ^ 64)))
    let addrs (js : List Nat) : List Nat := (parts js).map (·.2)
    s.regionOk (addrs ((List.range 128).filter (c.active o.gd))) n false (fun s => s.screen (addrs todo) n false false (fun s =>
      specFirst false false n (parts todo) s (fun s =>
        finishMem 12 todo (fun es c => es.foldl (fun c e => c.setColumn o.d w e.1 e.2) c) s.specThread
          (runPhases (loadElems false (fun s j => s.loadRun (s.whoAt j) o.fr n (32 / n) (row j) 0 0))
            (phases c.replays todo) { s := s }))))))

end Sys2Proof.Machine
end

