-- ==== Sys2Proof/Machine/Matrix.lean ====
section
/-! DEFINITION. Matrix instructions: attachment (R401–R403), multiply–accumulate (R289, R404–R407) and tile movement
(R409–R412). -/

namespace Sys2Proof.Machine

open Sys2Proof

/-! ### Tiles and operands (R309, R398) -/

/-- A tile field must be below 4 (R297). -/
def tileOk (r : Reg) (s : State) (k : State → State) : State := operandOk (r.val < 4) s k

/-- The tile that a field names. -/
def tileNo (r : Reg) : Fin 4 := Fin.ofNat 4 r.val

/-- Container (r, j). -/
def contOf (t : BitVec 131072) (r j : Nat) : Nat := (t.extractLsb' (64 * (128 * r + j)) 64).toNat

/-- Replace container (r, j). -/
def setCont (t : BitVec 131072) (r j v : Nat) : BitVec 131072 := setFld t (64 * (128 * r + j)) 64 v

/-- Active rows of C (R400). -/
def Core.rowsOf (c : Core) (gd : Guard) : List Nat := (List.range 16).filter (fun r => r < c.tshape.rows && c.active gd r)

/-- A register group read as one string of 32768 bits. -/
def Core.group (c : Core) (b : Reg) : BitVec 32768 :=
  BitVec.ofNat 32768 (((List.range 8).map (fun q => (c.getV (Fin.ofNat 64 (b.val + q))).toNat * 2 ^ (4096 * q))).sum)

/-- Clear `tprog` and discard the staging buffer (R239, R412). (DEDUCED: log 76) -/
def State.unstage (s : State) : State := s.setMe { s.me with tpAct := false, tpProg := 0, staging := 0 }

/-- What a restartable instruction does first: unless it resumes, it discards what another has staged (R412). -/
def State.restage (s : State) : State := if s.me.tpAct then s else s.unstage

/-! ### Attachment -/

/-- Release every slab of the core, request `r`, and take the lowest-numbered free ones (R402). -/
def State.attach (s : State) (c r : Nat) : State := (s.setCore c { s.core c with mslabs := 0, mreq := r }).takeSlabs c

/-- `matt`: a request above 8 takes trap 0x11 whatever the guard. (DEDUCED: log 76) -/
def execMatt (o : MAttF) (s : State) : Out :=
  let r := (s.x o.a).toNat
  .next (operandOk (r ≤ 8) s (fun s => guarded o.gd 8 s (fun s => commitIf true s (fun s =>
    let s := s.unstage.attach s.cur r
    (s.setX o.d (wd s.me.slabs)).adv 8))))

/-- `mdet`. (DEDUCED: log 76) -/
def execMdet (o : MDetF) (s : State) : Out :=
  .next (guarded o.gd 8 s (fun s => commitIf true s (fun s => (s.unstage.attach s.cur 0).adv 8)))

/-! ### Multiply–accumulate -/

/-- Where a matrix instruction's values come from: the element types and their scales. -/
structure MmaIn where
  ty : Ty
  a : BitVec 4096
  b : BitVec 32768
  sa : BitVec 4096 := 0
  sb : BitVec 4096 := 0
  sb2 : BitVec 4096 := 0
  bandA : Nat := 0
  bandB : Word := 0
  fz : Bool
  deriving DecidableEq, Repr

/-- Rows of B, columns of A. -/
def MmaIn.k (m : MmaIn) : Nat := 256 / m.ty.width

/-- An element's value before its scales, flushed under `fz` (R279). -/
def MmaIn.plain (m : MmaIn) (bits : Nat) : FVal := (fmtOf m.ty).value (flushSrc m.fz (fmtOf m.ty) bits)

/-- A(r, k). -/
def MmaIn.elemA (m : MmaIn) (r k : Nat) : FVal :=
  let w := m.ty.width
  let v := m.plain (elemOf m.a w (m.k * r + k))
  match m.ty with
  | .mx4 => mxValue v (byteOf m.sa (2 * r + k / 32))
  | .mx8 => mxValue v (byteOf m.sa r)
  | .fb4 => fb4Value v (byteOf m.sa (8 * r + k / 8)) m.bandA
  | _ => v

/-- B(k, j). -/
def MmaIn.elemB (m : MmaIn) (k j : Nat) : FVal :=
  let w := m.ty.width
  let v := m.plain (m.b.extractLsb' (w * (128 * k + j)) w).toNat
  match m.ty with
  | .mx4 => mxValue v (byteOf m.sb (2 * j + k / 32))
  | .mx8 => mxValue v (byteOf m.sb j)
  | .fb4 =>
      let i := 8 * j + k / 8
      fb4Value v (if i < 512 then byteOf m.sb i else byteOf m.sb2 (i - 512))
        (if j < 64 then fld m.bandB.toNat 0 16 else fld m.bandB.toNat 16 16)
  | _ => v

/-- One element of C: the exact sum rounded once (R289). -/
def MmaIn.cell (m : MmaIn) (e : FEnv) (cold : Nat) (arow : List FVal) (j : Nat) : FRes :=
  ((arow.zipIdx).foldl (fun (s : Acc) x => s.addProd x.1 (m.elemB x.2 j)) (({} : Acc).add (e.src cold))).round e

/-- A row of C: the columns below `cols`. -/
def MmaIn.row (m : MmaIn) (e : FEnv) (t : BitVec 131072) (r cols : Nat) : List (Nat × FRes) :=
  let arow := (List.range m.k).map (m.elemA r)
  (List.range cols).map (fun j => (j, m.cell e (contOf t r j % 2 ^ e.f.w) arow j))

/-- Compute and write C, set the flags and end the instruction (R405): bit r of `tmask` marks a row. -/
def mmaFinish (m : MmaIn) (d : Reg) (wide : Bool) (rm : Fin 8) (gd : Guard) (len : Nat) (s : State) : State :=
  let c := s.me
  let af : Ty := if m.ty = .f64 ∨ wide then .f64 else .f32
  let e := c.vectorEnv af rm
  let t := c.getT (tileNo d)
  let rows := (c.rowsOf gd).map (fun r => (r, m.row e t r c.tshape.cols))
  let t' := rows.foldl (fun t r => r.2.foldl (fun t x => setCont t r.1 x.1 x.2.bits) t) t
  let res : List VRes := rows.map (fun r => ⟨r.1, ⟨0, r.2.foldl (fun f x => f ||| x.2.fl) 0⟩⟩)
  let fl := flagsOf res
  arithEnd fl (maskOf c.tren res) s (((s.setMe (c.setT (tileNo d) t')).orFlags fl).unstage.adv len)

/-- Trap 0x12 with no slab held. -/
def attached (s : State) (k : State → State) : State := if s.me.slabs = 0 then trapAt 0x12 0 0 s else k s

/-- The operand limits of the forms: tile, and for `.fb4` an even second scale register (R404, R406). -/
def scalesOk (ty : Ty) (x : Scales) : Bool := ty != .fb4 || x.sb.val % 2 == 0

/-- The values of a form without scales. -/
def mmaIn (c : Core) (ty : Ty) (a : Reg) (b : BitVec 32768) : MmaIn := { ty := ty, a := c.getV a, b := b, fz := c.fz }

/-- The values of a block form. -/
def mmaInB (c : Core) (ty : Ty) (a : Reg) (b : BitVec 32768) (x : Scales) : MmaIn :=
  { ty := ty, a := c.getV a, b := b, sa := c.getV x.sa, sb := c.getV x.sb,
    sb2 := c.getV (Fin.ofNat 64 (x.sb.val + 1)), bandA := fld (c.getX x.xba).toNat 0 16, bandB := c.getX x.xbb,
    fz := c.fz }

/-- `mma` with B in registers. -/
def mmaReg (o : MmaF) (ok : Bool) (inp : Core → BitVec 32768 → MmaIn) (len : Nat) (s : State) : Out :=
  .next (operandOk (o.d.val < 4 && o.b.val % 8 == 0 && ok) s (fun s => attached s (fun s =>
    let s := s.unstage
    mmaFinish (inp s.me (s.me.group o.b)) o.d o.w o.rm o.gd len s)))

/-- `mma`. -/
def execMma (o : MmaF) (s : State) : Out := mmaReg o true (fun c b => mmaIn c o.ty o.a b) 8 s

/-- `mma` in its block form. -/
def execMmaBlock (o : MmaBF) (s : State) : Out :=
  mmaReg o.f (scalesOk o.f.ty o.s) (fun c b => mmaInB c o.f.ty o.f.a b o.s) 16 s

/-! ### Restartable instructions (R239) -/

/-- An instruction that moves rows stops at row `r`: `tprog` holds it. (DEDUCED: log 76) -/
def State.stopAt (s : State) (r : Nat) : State := s.setMe { s.me with tpAct := true, tpProg := r }

/-- End a restartable instruction that stopped at row `r`: `spec` marks a speculative chunk, which keeps nothing of it. -/
def rowEnd (r : Nat) (spec : Bool) (s0 : State) : Res → State
  | .ok _ s => s
  | .flt f s =>
      if spec then deferTrap s0
      else
        let s := s.stopAt r
        faultTrap [{ f with elem := r }] s
  | .wait w s => if spec then s.waitFor w else (s.stopAt r).waitFor w
  | .err s => s.detected s.cur s.pc

/-- Run rows in ascending order; `fin` ends the instruction when all are done. -/
def runRows (row : State → Nat → Res) (fin : State → State) (spec : Bool) (s0 : State) : List Nat → State → State
  | [], s => fin s
  | r :: rs, s =>
      match row s r with
      | .ok _ s => runRows row fin spec s0 rs s
      | x => rowEnd r spec s0 x

/-- The first row to do. -/
def Core.firstRow (c : Core) : Nat := if c.tpAct then c.tpProg else 0

/-- Row `r` at a base and a signed stride. -/
def rowAddr (base step : Word) (r : Nat) : Nat := (base + step * wd r).toNat

/-- `mmam`: rows of B are staged in ascending order, then C is computed (R407). (DEDUCED: log 76) -/
def mmamRun (o : MmamF) (ok : Bool) (inp : Core → BitVec 32768 → MmaIn) (len : Nat) (s : State) : Out :=
  .next (operandOk (o.d.val < 4 && ok) s (fun s => attached s (fun s =>
    let c := s.me
    let w := o.ty.width
    let rows := (List.range (256 / w)).drop c.firstRow
    let addr := rowAddr (c.getX o.b) (c.getX o.c)
    if (c.rowsOf o.gd).isEmpty then s.restage.adv len
    else s.regionOk ((List.range (256 / w)).map addr) (16 * w) false (fun s =>
      s.screen (rows.map addr) (16 * w) true false (fun s =>
        let s := s.restage
        runRows (fun s k => (s.loadAt (s.whoAt k) (addr k) (16 * w) false).bind (fun v s =>
            .ok 0 (s.setMe { s.me with staging := setFld s.me.staging (128 * w * k) (128 * w) v })))
          (fun s => mmaFinish (inp s.me s.me.staging) o.d o.w o.rm o.gd len s) s.specThread s rows s)))))

/-- `mmam`. -/
def execMmam (o : MmamF) (s : State) : Out := mmamRun o true (fun c b => mmaIn c o.ty o.a b) 8 s

/-- `mmam` in its block form. -/
def execMmamBlock (o : MmamBF) (s : State) : Out :=
  mmamRun o.f (scalesOk o.f.ty o.s) (fun c b => mmaInB c o.f.ty o.f.a b o.s) 16 s

/-! ### Tile movement -/

/-- `mzero`. -/
def execMzero (o : MZeroF) (s : State) : Out :=
  .next (tileOk o.d s (fun s =>
    let s := s.unstage
    let c := s.me
    let t := (c.rowsOf o.gd).foldl (fun t r =>
      (List.range c.tshape.cols).foldl (fun t j => setCont t r j 0) t) (c.getT (tileNo o.d))
    (s.setMe (c.setT (tileNo o.d) t)).adv 8))

/-- `mldt` (R410). -/
def execMldt (o : MRowF) (s : State) : Out :=
  .next (tileOk o.d s (fun s =>
    let c := s.me
    let e := o.ty.width / 8
    let n := e * c.tshape.cols
    let rows := (c.rowsOf o.gd).filter (fun r => c.firstRow ≤ r)
    let addr := rowAddr (c.getX o.a) (c.getX o.b)
    s.regionOk ((c.rowsOf o.gd).map addr) n false (fun s => s.screen (rows.map addr) n true false (fun s =>
      let s := s.restage
      runRows (fun s r => (s.loadAt (s.whoAt r) (addr r) n false).bind (fun v s =>
          let t := (List.range c.tshape.cols).foldl (fun t j => setCont t r j (fld v (8 * e * j) (8 * e)))
            (s.me.getT (tileNo o.d))
          .ok 0 (s.setMe (s.me.setT (tileNo o.d) t))))
        (fun s => s.unstage.adv 8) s.specThread s rows s))))

/-- Store elements of `e` bytes one after another, each an access of its own (R203, R412). -/
def State.storeEach (s : State) (w : Who) (e : Nat) : List (Nat × Nat) → Res
  | [] => .ok 0 s
  | (va, v) :: vs => (s.storeAt w va e (v % 2 ^ (8 * e))).bind (fun _ s => State.storeEach s w e vs)

/-- Store a tile row of elements of `e` bytes when every byte of it has been translated (R239, R410). -/
def State.storeRow (s : State) (w : Who) (e a : Nat) (vs : List Nat) : Res :=
  let es := (vs.zipIdx).map (fun x => ((a + e * x.2) % 2 ^ 64, x.1))
  let t := placeElems true e (es.map (fun x => (w.elem, x.1))) s
  match t.held, t.faults with
  | some x, _ => .wait x t.s
  | none, f :: _ => .flt f t.s
  | none, [] => t.s.storeEach w e es

/-- `mstt` (R410). -/
def execMstt (o : MSttF) (s : State) : Out :=
  .next (tileOk o.c s (fun s =>
    let c := s.me
    let e := o.ty.width / 8
    let n := e * c.tshape.cols
    let rows := (c.rowsOf o.gd).filter (fun r => c.firstRow ≤ r)
    let addr := rowAddr (c.getX o.a) (c.getX o.b)
    let t := c.getT (tileNo o.c)
    s.regionOk ((c.rowsOf o.gd).map addr) n true (fun s => s.screen (rows.map addr) n true false (fun s =>
      let s := s.restage
      runRows (fun s r => s.storeRow (s.whoAt r) e (addr r) ((List.range c.tshape.cols).map (contOf t r)))
        (fun s => s.unstage.adv 8) s.specThread s rows s))))

/-- `mmov` is one row, chosen by x(b) below 16; `.f64` needs an even register (R411). -/
def mmovOk (t v b : Reg) (ty : Ty) (s : State) (k : State → State) : State :=
  operandOk (t.val < 4 && (s.x b).toNat < 16 && (ty != .f64 || v.val % 2 == 0)) s k

/-- `mmov`, the read form. -/
def execMmov (o : MRowF) (s : State) : Out :=
  .next (mmovOk o.a o.d o.b o.ty s (fun s => guarded o.gd 8 s (fun s =>
    let s := s.unstage
    let c := s.me
    let r := (c.getX o.b).toNat
    let t := c.getT (tileNo o.a)
    let c := if o.ty = .f64 then
        (c.setV o.d (t.extractLsb' (8192 * r) 4096)).setV (Fin.ofNat 64 (o.d.val + 1)) (t.extractLsb' (8192 * r + 4096) 4096)
      else
        c.setV o.d (BitVec.ofNat 4096 ((List.range 128).foldl
          (fun v j => v + contOf t r j % 2 ^ 32 * 2 ^ (32 * j)) 0))
    (s.setMe c).adv 8)))

/-- `mmov`, the write form. -/
def execMmovWr (o : MMovWrF) (s : State) : Out :=
  .next (mmovOk o.d o.a o.b o.ty s (fun s => guarded o.gd 8 s (fun s =>
    let s := s.unstage
    let c := s.me
    let r := (c.getX o.b).toNat
    let f (j : Nat) : Nat :=
      if o.ty = .f64 then
        (if j < 64 then elemOf (c.getV o.a) 64 j else elemOf (c.getV (Fin.ofNat 64 (o.a.val + 1))) 64 (j - 64))
      else elemOf (c.getV o.a) 32 j
    let t := (List.range 128).foldl (fun t j => setCont t r j (f j)) (c.getT (tileNo o.d))
    (s.setMe (c.setT (tileNo o.d) t)).adv 8)))

end Sys2Proof.Machine
end

