-- ==== Sys2Proof/Machine/Messages.lean ====
section
/-! DEFINITION. Messages and remote atomics (R422–R427): `send`, `sends`, `mpoll`, `mwait`, `mpop`, `ratom`. -/

namespace Sys2Proof.Machine

open Sys2Proof

/-! ### Sending -/

/-- The target and length words of `send` and `sends` (R423). -/
def sendWordsOk (a l : Word) (most : Nat) : Bool :=
  fld a.toNat 56 8 == 0xFE && fld a.toNat 2 30 == 0 && fld l.toNat 32 32 == 0 && fld l.toNat 13 3 == 0 &&
    fld l.toNat 0 13 ≤ most

/-- An earlier write, atomic or message that a message's release waits for (R68): in resequenced mode the message's own stream is
exempt. (DEDUCED: log 61) -/
def State.waitsFor (s : State) (c sc : Nat) (p : Pkt) : Bool :=
  s.fab.pkts.any (fun q => q.isWrite c && q.scope ≤ sc && !(!s.fab.ordAct && q.sameStream p))

/-- The next sequence number of a stream of messages (R198). -/
def State.takeSeq (s : State) (dev tgt : Nat) (b : Fin 4) : Nat × State :=
  let k := s.me
  let key := 16384 * dev + 4 * tgt + b.val
  let q := Table.get k.mseq key 0
  (q, s.setMe { k with mseq := Table.put k.mseq key ((q + 1) % 2 ^ 32) })

/-- A denied message of the executing core (R56). -/
def State.messageDenied (s : State) (va : Nat) : State :=
  s.deniedRecord s.cur s.key s.pc { cause := 9, acc := 7, va := va, elem := 0xFFFF }

/-- The packet of a message to a core of this package, or to a UALink port of it when the message is for another device (R42, R424).
-/
def State.message (s : State) (o : SendF) (a : Nat) (port : Option Nat) : Pkt :=
  let tgt := fld a 32 12
  let b : Fin 4 := Fin.ofNat 4 (fld a 0 2)
  let sc := if port.isSome then 8 else scopeBetween s.cur tgt
  { pid := 0, src := nodeOf s.cur, dst := (port.map ualNode).getD (nodeOf tgt), lane := b.val, kind := 7, key := s.key, seq := 0,
    score := s.cur, sdev := 0, dcore := tgt, buf := b, mseq := 0, tag := s.x o.d, payload := [], sand := o.sand,
    sdl := max 1 (fld (s.x o.c).toNat 16 16), rel := 0 < sc, sc := sc, away := port.map (fun u => (fld a 44 12, u)), pc := s.pc,
    launch := s.myLaunch }

/-- The release of a message, at the scope between this core and its target (R215): its earlier writes reach their homes, and it
waits for what has not been acknowledged (R68, R220). (DEDUCED: log 61) -/
def messageRelease (p : Pkt) (s : State) (k : State → State) : State :=
  if p.sc = 0 then k s
  else
    let s := s.softBackAll s.cur
    if !s.reached p.sc || s.waitsFor s.cur p.sc p then s.waitFor .release else k s

/-- Inject a message with its payload and its sequence number (R424); a key that is no member at the core's own port is denied there
(R54, R55). -/
def injectMessage (p : Pkt) (a : Nat) (payload : List Byte) (s : State) : State :=
  let q := s.takeSeq (p.away.getD (0, 0)).1 p.dcore p.buf
  let s := q.2
  if s.memberN p.src p.key then (s.inject { p with mseq := q.1, payload := payload }).adv 8
  else ((s.dropAt p.src p.key).messageDenied a).adv 8

/-- The load of a message's payload, which an io page answers only for an aligned access of at most 8 bytes (R193). -/
def payloadOk (va len : Nat) (s : State) (k : State → State) : State :=
  if len = 0 then k s
  else if s.touchesIo s.who va len && !(va % len == 0 && (len == 1 || len == 2 || len == 4 || len == 8)) then alignTrap (wd va) s
  else k s

/-- `send` and `sends` (R424), which name no scope (R302, R422): `pair` takes the payload from a register pair. The release comes before the payload's loads, so that a
`send` that waits repeats none of them. (DEDUCED: log 61) -/
def sendBy (pair : Bool) (o : SendF) (s : State) : Out :=
  let a := (s.x o.a).toNat
  let len := fld (s.x o.c).toNat 0 13
  let ok := o.sc == 0 && sendWordsOk (s.x o.a) (s.x o.c) (if pair then 16 else 4096) && !(pair && o.b.val % 2 == 1)
  let here := s.ownDev (fld a 44 12)
  .next (threadOnly s (fun s => operandOk ok s (fun s => noRegion s (fun s =>
    stickyIf (!(here && fld a 32 12 == s.cur)) s (fun s => guarded o.gd 8 s (fun s => commitPoint s (fun s =>
      let port := if here then none else s.portFor s.cur (fld a 44 12) a
      let p := s.message o a port
      let va := (s.x o.b).toNat
      if !here && port.isNone then faultTrap [{ cause := 10, acc := 7, va := a, elem := 0xFFFF }] s
      else if pair then
        messageRelease p s (injectMessage p a (bytesOf len ((s.x (nextPair o.b)).toNat * 2 ^ 64 + (s.x o.b).toNat)))
      else payloadOk va len s (messageRelease p · (fun s =>
        match s.loadAt s.who va len false with
        | .flt f s => faultTrap [{ f with acc := 7, elem := 0xFFFF }] s
        | .wait w s => s.waitFor w
        | .err s => s.detected s.cur s.pc
        | .ok v s => injectMessage p a (bytesOf len v) s)))))))))
where
  /-- The second register of a pair. -/
  nextPair (r : Reg) : Reg := Fin.ofNat 64 (r.val + 1)

/-- `send`. (DEDUCED: log 61) -/
def execSend (o : SendF) (s : State) : Out := sendBy false o s
/-- `sends`. -/
def execSends (o : SendF) (s : State) : Out := sendBy true o s

/-! ### Receiving (R425) -/

/-- The checks of `mpoll`, `mwait` and `mpop`, which name no scope (R302, R422); `on` is set where the buffer must be enabled. -/
def bufferOp (on : Bool) (o : MBufF) (s : State) (k : Fin 4 → State → State) : Out :=
  let n : Fin 4 := Fin.ofNat 4 o.a.val
  .next (threadOnly s (fun s => operandOk (o.sc == 0 && o.a.val < 4 && !(on && !(s.buf s.cur n).en)) s (fun s => noRegion s (fun s =>
    guarded o.gd 8 s (fun s => commitPoint s (k n))))))

/-- Return a tail: captured, and an acquire of the entries it covers (R215). -/
def pollTail (o : MBufF) (n : Fin 4) (s : State) : State :=
  let r := s.input s.cur 0x02 16 [(s.buf s.cur n).tail, n.val]
  ((r.2.softAcquire s.cur).setX o.d (wd (r.1.headD 0))).adv 8

/-- `mpoll`. (DEDUCED: log 62) -/
def execMpoll (o : MBufF) (s : State) : Out := bufferOp false o s (pollTail o)

/-- `mwait`: an interrupt may be taken while it waits, and it is then executed again. (DEDUCED: log 62) -/
def execMwait (o : MBufF) (s : State) : Out :=
  bufferOp true o s (fun n s =>
    let b := s.buf s.cur n
    if b.tail = b.head then s.waitFor (.mwait o) else pollTail o n s)

/-- `mpop`. -/
def execMpop (o : MBufF) (s : State) : Out :=
  bufferOp false o s (fun n s =>
    let s := (s.me.sbuf).foldl (fun s _ => s.drainOne s.cur) s
    let b := s.buf s.cur n
    if b.occ = 0 then (s.setX o.d (wd b.head)).adv 8
    else
      let ln := s.padGet s.cur (b.base * 4096 + b.head % b.size) 8 % 8192
      let head := (b.head + min (entryBytes ln) b.occ) % 2 ^ 19
      let k := s.me
      let s := (s.setMe { k with rb := k.rb.set n.val { b with head := head } n.isLt }).wakeHeld s.cur
      (s.setX o.d (wd head)).adv 8)

/-- MWAIT_WAKE (R425): the buffer's tail differs from its head, and the `mwait` is executed again. -/
def execMwaitWake (core : Fin 4096) (s : State) : Out :=
  let c := core.val
  let k := s.core c
  .next (match k.wait with
    | .mwait o =>
        let b := s.buf c (Fin.ofNat 4 o.a.val)
        if b.tail = b.head then s else (s.setCore c { k with wait := .none }).andThen (.core c)
    | _ => s)

/-! ### Remote atomics (R426, R427) -/

/-- A remote atomic at another device (R73, R427): its request takes an entry or waits for one (R65), crosses the torus to its UALink
port (R42), and the core waits for the answer: the old value, unsupported, or denied. (DEDUCED: log 19, 58) -/
def ratomAway (o : RatomF) (a : Nat) (s : State) : State :=
  let key := s.key
  match s.portFor s.cur (fld a 44 12) a with
  | none => faultTrap [{ cause := 10, acc := 2, va := a }] s
  | some u =>
      let here := nodeOf s.cur
      if !s.memberN here key then faultTrap [{ cause := 9, acc := 2, va := a }] (s.dropAt here key)
      else entryFree s [a] (fun s =>
        let i := s.me.freeEntry
        let s := s.setMe { s.me with oreqs := s.me.oreqs ++ [(i, false)], wait := .remote s.fab.nextPid o a }
        s.inject
          { pid := 0, src := here, dst := ualNode u, lane := laneOf a, kind := 3, key := key, seq := 0, score := s.cur, sdev := 0,
            dcore := fld a 32 12, buf := 0, mseq := 0, tag := 0, payload := [], sand := false, sdl := 0, size := o.ty.width / 8,
            addr := a, rel := o.rel, acq := o.acq, sc := o.sc.val, oreq := i, away := some (fld a 44 12, u), pc := s.pc,
            atom := some { ty := o.ty, op := o.c.val, b := (s.x o.b).toNat, b2 := (s.x (Fin.ofNat 64 (o.b.val + 1))).toNat } })

/-- `ratom` (R427), which no thread may aim at a context area (R240). (DEDUCED: log 19) -/
def execRatom (o : RatomF) (s : State) : Out :=
  let a := (s.x o.a).toNat
  let n := o.ty.width / 8
  let sc := o.sc.val
  let low (r : Reg) : Nat := (s.x r).toNat % 2 ^ o.ty.width
  .next (threadOnly s (fun s => operandOk (!(o.c.val == 5 && o.b.val % 2 == 1)) s (fun s => noRegion s (fun s =>
    stickyIf (o.rel && 0 < sc) s (fun s => guarded o.gd 8 s (fun s =>
      if a % n != 0 then alignTrap (wd a) s
      else commitPoint s (fun s =>
        if fld a 56 8 != 0xFE || 0x40000 < fld a 0 32 + n then faultTrap [{ cause := 7, acc := 2, va := a }] s
        else releaseAll (if o.rel then sc else 0) s (fun s =>
          if !s.ownDev (fld a 44 12) then ratomAway o a s
          else
            let c := Fin.ofNat 64 (o.b.val + 1)
            let w := s.whoAtomic { ty := o.ty, op := o.c.val, b := low o.b, b2 := low c } o.acq o.rel sc
            (s.atomicAt w a n (fun old => remoteOp o.ty o.c.val old (low o.b) (low c))).finish (fun old s =>
              let s := if o.acq && 0 < sc then s.softAcquire s.cur else s
              (s.setX o.d (extendTy o.ty old)).adv 8)))))))))

end Sys2Proof.Machine
end

