-- ==== Sys2Proof/Machine/ModuleSteps.lean ====
section
/-! DEFINITION. The rows of the module (R22–R40, R75, R76, R161): one meaning for each. -/

namespace Sys2Proof.Machine

open Sys2Proof

/-- COLD_RESET (R27). -/
def execColdReset (b : BootReport) (s : State) : Out := .next (coldReset b s)

/-- MODULE_WARM_RESET (R27). -/
def execModuleWarmReset (b : BootReport) (s : State) : Out := .next (moduleWarmReset b s)

/-- GOVERNOR_SAMPLE (R22). (DEDUCED: log 99) -/
def execGovernorSample (n : Fin 32) (depth : BitVec 8) (s : State) : Out := .next (governorSample n.val depth.toNat s)

/-- GOVERNOR_MOVE_DONE (R22, R23). -/
def execGovernorMoveDone (n : Fin 32) (s : State) : Out := .next (governorMoveDone n.val s)

/-- POWER_MEASUREMENT (R25). (DEDUCED: log 99) -/
def execPowerMeasurement (m : PowerSample) (s : State) : Out := .next (powerMeasurement m s)

/-- THERMAL_TRIP (R25). -/
def execThermalTrip (s : State) : Out := .next (thermalTrip s)

/-- TAMPER_ALARM (R31–R33). -/
def execTamperAlarm (sensor : Fin 5) (s : State) : Out := .next (tamperAlarm sensor.val s)

/-- ALM_CFG_WRITE (R31). -/
def execAlmCfgWrite (w : BitVec 64) (s : State) : Out := .next (almCfgWrite w s)

/-- REGISTER_WRITE (R11). -/
def execRegisterWrite (r : RegPath) (w : BitVec 64) (s : State) : Out := .next (registerWrite r w s)

/-- CXL_LINK_TRAIN (R38, R76). -/
def execCxlLinkTrain (l : Fin 8) (k : TrainKind) (s : State) : Out := .next (cxlLinkTrain l.val k s)

/-- CXL_LINK_LOSS (R90). -/
def execCxlLinkLoss (l : Fin 8) (s : State) : Out := .next (cxlLinkLoss l.val s)

/-- TAP_BYPASS (R40). -/
def execTapBypass (s : State) : Out := .next (tapBypass s)

/-- TAP_IDCODE (R40). -/
def execTapIdcode (s : State) : Out := .next (tapIdcode s)

/-- TAP_SAMPLE_PRELOAD (R40). -/
def execTapSamplePreload (s : State) : Out := .next (tapSamplePreload s)

/-- TAP_EXTEST (R40). -/
def execTapExtest (s : State) : Out := .next (tapExtest s)

/-- INVASIVE_DEBUG_ENABLE (R40). -/
def execInvasiveDebugEnable (ok : Bool) (s : State) : Out := .next (invasiveDebugEnable ok s)

/-- PLDM_MONITOR (R39). -/
def execPldmMonitor (s : State) : Out := .next (pldmMonitor s)

/-- PLDM_FW_UPDATE (R38, R39). -/
def execPldmFwUpdate (item : PldmItem) (v : Nat) (s : State) : Out := .next (pldmFwUpdate item v s)

/-- POWER_OFF (R25, R32). -/
def execPowerOff (s : State) : Out := .next (powerOff s)

/-- CORE_RETENTION_SLEEP (R161). (DEDUCED: log 99) -/
def execCoreRetentionSleep (core : Fin 4096) (s : State) : Out := .next (coreRetentionSleep core.val s)

/-- IDE_KM_REQUEST (R75). -/
def execIdeKmRequest (l : Fin 8) (stream : Fin 2) (switch : Bool) (s : State) : Out :=
  .next (ideKmRequest l.val stream.val switch s)

end Sys2Proof.Machine
end

