-- ==== Sys2Proof/Machine/Scalar.lean ====
section
/-! DEFINITION. The scalar integer, immediate, floating-point and control instructions (R326–R341). -/

namespace Sys2Proof.Machine

open Sys2Proof

/-! ### Shared forms -/

/-- Write a scalar result, set flags, advance, and trap for an enabled flag (R324). -/
def finishX (d : Reg) (w : Word) (fl : FlagSet) (s : State) : State :=
  arithEnd fl 1 s (((s.setX d w).orFlags fl).adv 8)

/-- A binary integer function (R328). -/
def intBin (op : IOp) (o : XXX) (s : State) : Out :=
  .next (guarded o.gd 8 s (fun s =>
    let r := intOp op o.ty (Word.int (s.x o.a) o.ty) (Word.int (s.x o.b) o.ty)
    finishX o.d (resultOf o.ty r.1) r.2 s))

/-- A comparison that writes a truth value (R328). -/
def intTruth (c : Cmp) (o : XXX) (s : State) : Out :=
  .next (guarded o.gd 8 s (fun s =>
    finishX o.d (truth (intCmp c (Word.int (s.x o.a) o.ty) (Word.int (s.x o.b) o.ty))) 0 s))

/-- A count of a `w`-bit source (R328). -/
def intCount (f : Nat → Nat → Nat) (o : XX) (s : State) : Out :=
  .next (guarded o.gd 8 s (fun s => finishX o.d (wd (f o.ty.width (s.x o.a).toNat)) 0 s))

/-- The immediate form on 64-bit registers (R329). -/
def immOp (f : Word → Word → Word) (o : XXI) (s : State) : Out :=
  .next (guarded o.gd 8 s (fun s => (s.setX o.d (f (s.x o.a) (sext32 o.imm))).adv 8))

/-- A floating-point function with two sources (R332, R333). (DEDUCED: log 70) -/
def fpBin (op : FOp) (o : FXXX) (s : State) : Out :=
  .next (guarded o.gd 8 s (fun s =>
    let w := o.ty.width
    let r := fpOp op (s.me.scalarEnv o.ty o.rm) ((s.x o.a).toNat % 2 ^ w) ((s.x o.b).toNat % 2 ^ w) 0
    finishX o.d (wd r.bits) r.fl s))

/-- A floating-point comparison (R336). -/
def fpTruth (c : Cmp) (o : FXXX) (s : State) : Out :=
  .next (guarded o.gd 8 s (fun s =>
    let w := o.ty.width
    let r := fpCmp c false (fmtOf o.ty) ((s.x o.a).toNat % 2 ^ w) ((s.x o.b).toNat % 2 ^ w)
    finishX o.d (truth r.1) r.2 s))

/-! ### Integer arithmetic (R327) -/

/-- `add`. -/
def execAdd (o : XXX) (s : State) : Out := intBin .add o s
/-- `sub`. -/
def execSub (o : XXX) (s : State) : Out := intBin .sub o s
/-- `mul`. -/
def execMul (o : XXX) (s : State) : Out := intBin .mul o s
/-- `mulh`. -/
def execMulh (o : XXX) (s : State) : Out := intBin .mulh o s
/-- `div` (R272). -/
def execDiv (o : XXX) (s : State) : Out := intBin .div o s
/-- `rem` (R272). -/
def execRem (o : XXX) (s : State) : Out := intBin .rem o s
/-- `and`. -/
def execAnd (o : XXX) (s : State) : Out := intBin .and o s
/-- `or`. -/
def execOr (o : XXX) (s : State) : Out := intBin .or o s
/-- `xor`. -/
def execXor (o : XXX) (s : State) : Out := intBin .xor o s
/-- `andn`. -/
def execAndn (o : XXX) (s : State) : Out := intBin .andn o s
/-- `sll`. -/
def execSll (o : XXX) (s : State) : Out := intBin .sll o s
/-- `srl`. -/
def execSrl (o : XXX) (s : State) : Out := intBin .srl o s
/-- `sra`. -/
def execSra (o : XXX) (s : State) : Out := intBin .sra o s
/-- `rol`. -/
def execRol (o : XXX) (s : State) : Out := intBin .rol o s
/-- `min`. -/
def execMin (o : XXX) (s : State) : Out := intBin .min o s
/-- `max`. -/
def execMax (o : XXX) (s : State) : Out := intBin .max o s
/-- `adds` (R271). -/
def execAdds (o : XXX) (s : State) : Out := intBin .adds o s
/-- `subs` (R271). -/
def execSubs (o : XXX) (s : State) : Out := intBin .subs o s
/-- `mov`. -/
def execMov (o : XX) (s : State) : Out :=
  .next (guarded o.gd 8 s (fun s => finishX o.d (resultOf o.ty (Word.int (s.x o.a) o.ty)) 0 s))
/-- `seq`. -/
def execSeq (o : XXX) (s : State) : Out := intTruth .eq o s
/-- `slt`. -/
def execSlt (o : XXX) (s : State) : Out := intTruth .lt o s
/-- `sle`. -/
def execSle (o : XXX) (s : State) : Out := intTruth .le o s

/-- `sel`: A where the `w` bits of C are not all zero, else B. -/
def execSel (o : XXXX) (s : State) : Out :=
  .next (guarded o.gd 8 s (fun s =>
    let c := (s.x o.c).toNat % 2 ^ o.ty.width
    finishX o.d (resultOf o.ty (Word.int (s.x (if c != 0 then o.a else o.b)) o.ty)) 0 s))

/-- `clz`. -/
def execClz (o : XX) (s : State) : Out := intCount clzN o s
/-- `ctz`. -/
def execCtz (o : XX) (s : State) : Out := intCount ctzN o s
/-- `popc`. -/
def execPopc (o : XX) (s : State) : Out := intCount popcount o s

/-- `ext`: a `w`-bit field of the 64-bit x(a) at bit x(b)[5:0]. -/
def execExt (o : XXX) (s : State) : Out :=
  .next (guarded o.gd 8 s (fun s =>
    let pos := (s.x o.b).toNat % 64
    finishX o.d (extendTy o.ty ((s.x o.a).toNat / 2 ^ pos)) 0 s))

/-! ### Immediates and constants (R329–R331) -/

/-- `addi`. -/
def execAddi (o : XXI) (s : State) : Out := immOp (fun a i => a + i) o s
/-- `andi`. -/
def execAndi (o : XXI) (s : State) : Out := immOp (fun a i => a &&& i) o s
/-- `ori`. -/
def execOri (o : XXI) (s : State) : Out := immOp (fun a i => a ||| i) o s
/-- `xori`. -/
def execXori (o : XXI) (s : State) : Out := immOp (fun a i => a ^^^ i) o s
/-- `slli`. -/
def execSlli (o : XXI) (s : State) : Out := immOp (fun a i => a <<< (i.toNat % 64)) o s
/-- `srli`. -/
def execSrli (o : XXI) (s : State) : Out := immOp (fun a i => a >>> (i.toNat % 64)) o s
/-- `srai`. -/
def execSrai (o : XXI) (s : State) : Out := immOp (fun a i => a.sshiftRight (i.toNat % 64)) o s
/-- `slti`. -/
def execSlti (o : XXI) (s : State) : Out := immOp (fun a i => truth (a.slt i)) o s
/-- `sltui`. -/
def execSltui (o : XXI) (s : State) : Out := immOp (fun a i => truth (a.ult i)) o s

/-- `li` with a 32-bit immediate. -/
def execLi (o : XI) (s : State) : Out :=
  .next (guarded o.gd 8 s (fun s => (s.setX o.d (sext32 o.imm)).adv 8))

/-- `lih`: the immediate over the low half of x(a). -/
def execLih (o : XXI) (s : State) : Out :=
  .next (guarded o.gd 8 s (fun s =>
    (s.setX o.d (wd (o.imm.toNat * 2 ^ 32 + (s.x o.a).toNat % 2 ^ 32))).adv 8))

/-- `li` with a 64-bit immediate (R330), 16 bytes long. -/
def execLiImm64 (o : XI64) (s : State) : Out :=
  .next (guarded o.gd 16 s (fun s => (s.setX o.d o.imm).adv 16))

/-- `lpc` (R331). -/
def execLpc (o : XI) (s : State) : Out :=
  .next (guarded o.gd 8 s (fun s => (s.setX o.d (s.pc + sext32 o.imm * 4)).adv 8))

/-! ### Floating point (R332–R337) -/

/-- `fadd`. -/
def execFadd (o : FXXX) (s : State) : Out := fpBin .add o s
/-- `fsub`. -/
def execFsub (o : FXXX) (s : State) : Out := fpBin .sub o s
/-- `fmul`. -/
def execFmul (o : FXXX) (s : State) : Out := fpBin .mul o s
/-- `fdiv`. -/
def execFdiv (o : FXXX) (s : State) : Out := fpBin .div o s
/-- `fmin` (R334). -/
def execFmin (o : FXXX) (s : State) : Out := fpBin .min o s
/-- `fmax` (R334). -/
def execFmax (o : FXXX) (s : State) : Out := fpBin .max o s

/-- `fsqrt`. -/
def execFsqrt (o : FXX) (s : State) : Out :=
  .next (guarded o.gd 8 s (fun s =>
    let r := fpSqrt (s.me.scalarEnv o.ty o.rm) ((s.x o.a).toNat % 2 ^ o.ty.width)
    finishX o.d (wd r.bits) r.fl s))

/-- `fma` (R288). -/
def execFma (o : FXXXX) (s : State) : Out :=
  .next (guarded o.gd 8 s (fun s =>
    let w := o.ty.width
    let r := fpFma (s.me.scalarEnv o.ty o.rm) false false ((s.x o.a).toNat % 2 ^ w) ((s.x o.b).toNat % 2 ^ w)
      ((s.x o.c).toNat % 2 ^ w)
    finishX o.d (wd r.bits) r.fl s))

/-- `fsgn` (R335). -/
def execFsgn (o : FSgn) (s : State) : Out :=
  .next (guarded o.gd 8 s (fun s =>
    let w := o.ty.width
    finishX o.d (wd (fpSgn o.sub (fmtOf o.ty) ((s.x o.a).toNat % 2 ^ w) ((s.x o.b).toNat % 2 ^ w))) 0 s))

/-- `feq`. -/
def execFeq (o : FXXX) (s : State) : Out := fpTruth .eq o s
/-- `flt`. -/
def execFlt (o : FXXX) (s : State) : Out := fpTruth .lt o s
/-- `fle`. -/
def execFle (o : FXXX) (s : State) : Out := fpTruth .le o s

/-- `fclass`. -/
def execFclass (o : FXX) (s : State) : Out :=
  .next (guarded o.gd 8 s (fun s =>
    finishX o.d (wd (fpClass (fmtOf o.ty) ((s.x o.a).toNat % 2 ^ o.ty.width))) 0 s))

/-- `fcvt` (R337); only a narrowing one rounds stochastically, with element index 0. -/
def execFcvt (o : FCvt) (s : State) : Out :=
  .next (guarded o.gd 8 s (fun s =>
    let b := (s.x o.a).toNat % 2 ^ o.src.width
    let narrow := RndUse.ofCvt o.src o.ty == .narrowing
    let e : FEnv := { f := fmtOf o.ty, mode := s.me.scalarMode o.rm narrow, fz := false, rnd := s.me.random 0 b }
    let r := cvtFF e (fmtOf o.src) b
    finishX o.d (wd r.bits) r.fl s))

/-- `fcvti` (R286). -/
def execFcvti (o : FCvt) (s : State) : Out :=
  .next (guarded o.gd 8 s (fun s =>
    let f := fmtOf o.src
    let r := cvtFI o.ty (s.me.scalarMode o.rm false) (f.value ((s.x o.a).toNat % 2 ^ o.src.width))
    finishX o.d (extendTy o.ty r.bits) r.fl s))

/-- `ficvt` (R287). -/
def execFicvt (o : FCvt) (s : State) : Out :=
  .next (guarded o.gd 8 s (fun s =>
    let r := cvtIF (s.me.scalarEnv o.ty o.rm) (Word.int (s.x o.a) o.src)
    finishX o.d (wd r.bits) r.fl s))

/-! ### Control transfer (R338–R341) -/

/-- Kinds of transfer, as call depth counts them (R341). -/
inductive Xfer where
  | jump | call | ret | jalr
  deriving DecidableEq, Repr

/-- The executing core's chunk and its loop, when its own code transfers control. -/
def State.body (s : State) : Option (Chunk × Forked) :=
  if s.me.handler then none
  else match s.myChunk, s.myRing.forked with
    | some k, some g => some (k, g)
    | _, _ => none

/-- A target outside the body of a forked loop (R132). -/
def Forked.outside (g : Forked) (t : Word) : Bool := t.ult (pastFork g.f) || g.e.ult t

/-- A chunk leaves its loop: it stalls at the instruction until it is the oldest (R144). -/
def leaveLoop (tgt : Word) (link : Option (Reg × Word)) (s : State) : State :=
  let s := s.waitFor (.leave tgt link)
  if s.speculative then s else s.after (.loopExit (Fin.ofNat 4096 s.cur))

/-- Go to a target, writing a link register first where there is one (R338–R341). -/
def transfer (k : Xfer) (link : Option (Reg × Word)) (tgt : Word) (s : State) : State :=
  let go (s : State) : State :=
    (match link with
     | some (d, w) => s.setX d w
     | none => s).setPc tgt
  match s.body with
  | none => go s
  | some (c, g) =>
      if c.depth = 0 ∧ (k = .ret ∨ (k ≠ .call ∧ g.outside tgt)) then leaveLoop tgt link s
      else
        let d := match k with
          | .jump => c.depth
          | .ret => c.depth - 1
          | _ => c.depth + 1
        go (s.setMyRing (s.myRing.setChunk { c with depth := d }))

/-- Trap 0x03 at the transfer itself for a misaligned target (R294, R230). -/
def alignedTarget (tgt : Word) (s : State) (k : State → State) : State :=
  if tgt.toNat % 4 = 0 then k s else faultTrap [{ cause := 7, acc := 4, va := tgt.toNat }] s

/-- A branch (R339). -/
def branch (taken : Bool) (off : BitVec 32) (s : State) : Out :=
  .next (if taken then transfer .jump none (s.pc + sext32 off * 4) s else s.adv 8)

/-- `nop` (R305). -/
def execNop (_ : OnlyGuard) (s : State) : Out := .next (s.adv 8)

/-- `jr`. -/
def execJr (o : JumpReg) (s : State) : Out :=
  .next (guarded o.gd 8 s (fun s => alignedTarget (s.x o.a) s (transfer .jump none (s.x o.a))))

/-- `jalr`. -/
def execJalr (o : JumpLink) (s : State) : Out :=
  .next (guarded o.gd 8 s (fun s => alignedTarget (s.x o.a) s (transfer .jalr (some (o.d, s.pc + 8)) (s.x o.a))))

/-- `ret`. -/
def execRet (o : JumpReg) (s : State) : Out :=
  .next (guarded o.gd 8 s (fun s => alignedTarget (s.x o.a) s (transfer .ret none (s.x o.a))))

/-- `b`. -/
def execB (o : BrOff) (s : State) : Out := branch true o.off s
/-- `beq`. -/
def execBeq (o : BrCmp) (s : State) : Out := branch (s.x o.a == s.x o.b) o.off s
/-- `bne`. -/
def execBne (o : BrCmp) (s : State) : Out := branch (s.x o.a != s.x o.b) o.off s
/-- `blt`. -/
def execBlt (o : BrCmp) (s : State) : Out := branch ((s.x o.a).slt (s.x o.b)) o.off s
/-- `bge`. -/
def execBge (o : BrCmp) (s : State) : Out := branch (!(s.x o.a).slt (s.x o.b)) o.off s
/-- `bltu`. -/
def execBltu (o : BrCmp) (s : State) : Out := branch ((s.x o.a).ult (s.x o.b)) o.off s
/-- `bgeu`. -/
def execBgeu (o : BrCmp) (s : State) : Out := branch (!(s.x o.a).ult (s.x o.b)) o.off s

/-- Element 0 of predicate register `r`, which must exist (R297). -/
def predBranch (want : Bool) (o : BrReg) (s : State) : Out :=
  if o.r.val < 16 then branch ((s.me.getP (Fin.ofNat 16 o.r.val)).getLsbD 0 == want) o.off s
  else .next (operandTrap s)

/-- `bpt`. -/
def execBpt (o : BrReg) (s : State) : Out := predBranch true o s
/-- `bpf`. -/
def execBpf (o : BrReg) (s : State) : Out := predBranch false o s

/-- `call` (R340). -/
def execCall (o : BrReg) (s : State) : Out :=
  .next (transfer .call (some (o.r, s.pc + 8)) (s.pc + sext32 o.off * 4) s)

end Sys2Proof.Machine
end

