-- ==== Sys2Proof/Machine/Dispatch.lean ====
section
/-! DEFINITION. The dispatch of every instruction and step to its meaning, one arm each. -/

namespace Sys2Proof.Machine

open Sys2Proof

/-- The meaning of each instruction and step. -/
def exec (i : Instr) (s : State) : Host.Outcome State Fault Refusal :=
  match i with
  | .coldReset b => Sys2Proof.Machine.execColdReset b s
  | .moduleWarmReset b => Sys2Proof.Machine.execModuleWarmReset b s
  | .governorSample n depth => Sys2Proof.Machine.execGovernorSample n depth s
  | .governorMoveDone n => Sys2Proof.Machine.execGovernorMoveDone n s
  | .powerMeasurement m => Sys2Proof.Machine.execPowerMeasurement m s
  | .thermalTrip => Sys2Proof.Machine.execThermalTrip s
  | .tamperAlarm sensor => Sys2Proof.Machine.execTamperAlarm sensor s
  | .almCfgWrite w => Sys2Proof.Machine.execAlmCfgWrite w s
  | .registerWrite r w => Sys2Proof.Machine.execRegisterWrite r w s
  | .ualinkFlitTransmit p => Sys2Proof.Machine.execUalinkFlitTransmit p s
  | .ualinkFlitReceive p f => Sys2Proof.Machine.execUalinkFlitReceive p f s
  | .cxlLinkTrain l k => Sys2Proof.Machine.execCxlLinkTrain l k s
  | .cxlLinkLoss l => Sys2Proof.Machine.execCxlLinkLoss l s
  | .tapBypass => Sys2Proof.Machine.execTapBypass s
  | .tapIdcode => Sys2Proof.Machine.execTapIdcode s
  | .tapSamplePreload => Sys2Proof.Machine.execTapSamplePreload s
  | .tapExtest => Sys2Proof.Machine.execTapExtest s
  | .invasiveDebugEnable ok => Sys2Proof.Machine.execInvasiveDebugEnable ok s
  | .pldmMonitor => Sys2Proof.Machine.execPldmMonitor s
  | .pldmFwUpdate item v => Sys2Proof.Machine.execPldmFwUpdate item v s
  | .routerCycle n => Sys2Proof.Machine.execRouterCycle n s
  | .starve n => Sys2Proof.Machine.execStarve n s
  | .packetArrival pid flips => Sys2Proof.Machine.execPacketArrival pid flips s
  | .refusedReceipt pid => Sys2Proof.Machine.execRefusedReceipt pid s
  | .acknowledgeReceipt pid => Sys2Proof.Machine.execAcknowledgeReceipt pid s
  | .deniedReceipt pid => Sys2Proof.Machine.execDeniedReceipt pid s
  | .messageResend pid => Sys2Proof.Machine.execMessageResend pid s
  | .sandWindowEnd pid => Sys2Proof.Machine.execSandWindowEnd pid s
  | .sandSourceTimeout pid block => Sys2Proof.Machine.execSandSourceTimeout pid block s
  | .snpData half => Sys2Proof.Machine.execSnpData half s
  | .snpInv half => Sys2Proof.Machine.execSnpInv half s
  | .snpCur half => Sys2Proof.Machine.execSnpCur half s
  | .goReceipt half g data => Sys2Proof.Machine.execGoReceipt half g data s
  | .hostLineCoreRead half core => Sys2Proof.Machine.execHostLineCoreRead half core s
  | .hostLineCoreWrite half core => Sys2Proof.Machine.execHostLineCoreWrite half core s
  | .hostLineEviction half => Sys2Proof.Machine.execHostLineEviction half s
  | .memRdShared r => Sys2Proof.Machine.execMemRdShared r s
  | .memRdAny r => Sys2Proof.Machine.execMemRdAny r s
  | .memWr r data mask m => Sys2Proof.Machine.execMemWr r data mask m s
  | .biCoreRead l core => Sys2Proof.Machine.execBiCoreRead l core s
  | .biCoreWrite l core => Sys2Proof.Machine.execBiCoreWrite l core s
  | .birspReceipt l r data => Sys2Proof.Machine.execBirspReceipt l r data s
  | .filterEviction l => Sys2Proof.Machine.execFilterEviction l s
  | .doorbellWrite b w => Sys2Proof.Machine.execDoorbellWrite b w s
  | .doorbellServe j => Sys2Proof.Machine.execDoorbellServe j s
  | .status => Sys2Proof.Machine.execStatus s
  | .jobOpen => Sys2Proof.Machine.execJobOpen s
  | .jobClose => Sys2Proof.Machine.execJobClose s
  | .jobCloseDrainDone j => Sys2Proof.Machine.execJobCloseDrainDone j s
  | .keyInstall => Sys2Proof.Machine.execKeyInstall s
  | .keyClear => Sys2Proof.Machine.execKeyClear s
  | .linkKey => Sys2Proof.Machine.execLinkKey s
  | .warmReset => Sys2Proof.Machine.execWarmReset s
  | .mbxCompletion => Sys2Proof.Machine.execMbxCompletion s
  | .getVersion l => Sys2Proof.Machine.execGetVersion l s
  | .getCapabilities l => Sys2Proof.Machine.execGetCapabilities l s
  | .negotiateAlgorithms l => Sys2Proof.Machine.execNegotiateAlgorithms l s
  | .getDigests l => Sys2Proof.Machine.execGetDigests l s
  | .getCertificate l => Sys2Proof.Machine.execGetCertificate l s
  | .challenge l ok => Sys2Proof.Machine.execChallenge l ok s
  | .getMeasurements l signedOk => Sys2Proof.Machine.execGetMeasurements l signedOk s
  | .keyExchange l => Sys2Proof.Machine.execKeyExchange l s
  | .finish l ok => Sys2Proof.Machine.execFinish l ok s
  | .endSession l => Sys2Proof.Machine.execEndSession l s
  | .tlbiPage => Sys2Proof.Machine.execTlbiPage s
  | .tlbiKey => Sys2Proof.Machine.execTlbiKey s
  | .tlbiAll => Sys2Proof.Machine.execTlbiAll s
  | .tlbiNothing => Sys2Proof.Machine.execTlbiNothing s
  | .tlbiDone => Sys2Proof.Machine.execTlbiDone s
  | .launchCompletion j r => Sys2Proof.Machine.execLaunchCompletion j r s
  | .conditionEval j r => Sys2Proof.Machine.execConditionEval j r s
  | .switchEval j r => Sys2Proof.Machine.execSwitchEval j r s
  | .loopIteration j r => Sys2Proof.Machine.execLoopIteration j r s
  | .loopBodyDone j r => Sys2Proof.Machine.execLoopBodyDone j r s
  | .ringAssignment us => Sys2Proof.Machine.execRingAssignment us s
  | .park j r => Sys2Proof.Machine.execPark j r s
  | .interruptDelivery ring k => Sys2Proof.Machine.execInterruptDelivery ring k s
  | .liveOutArrival ring => Sys2Proof.Machine.execLiveOutArrival ring s
  | .storeBroadcastArrival ring => Sys2Proof.Machine.execStoreBroadcastArrival ring s
  | .chunkRestart core => Sys2Proof.Machine.execChunkRestart core s
  | .lookBackProbe core line => Sys2Proof.Machine.execLookBackProbe core line s
  | .siblingInvalidation core line fwd => Sys2Proof.Machine.execSiblingInvalidation core line fwd s
  | .chunkCommit core => Sys2Proof.Machine.execChunkCommit core s
  | .loopExit core => Sys2Proof.Machine.execLoopExit core s
  | .commitPointExecute core => Sys2Proof.Machine.execCommitPointExecute core s
  | .deferredFaultReplay core => Sys2Proof.Machine.execDeferredFaultReplay core s
  | .overflowStallEnd core => Sys2Proof.Machine.execOverflowStallEnd core s
  | .loadResponse core entry => Sys2Proof.Machine.execLoadResponse core entry s
  | .gets core line => Sys2Proof.Machine.execGets core line s
  | .getx core line => Sys2Proof.Machine.execGetx core line s
  | .upg core line => Sys2Proof.Machine.execUpg core line s
  | .puts core line => Sys2Proof.Machine.execPuts core line s
  | .putx core line => Sys2Proof.Machine.execPutx core line s
  | .invalidationReceipt core line => Sys2Proof.Machine.execInvalidationReceipt core line s
  | .forwardReceipt core line => Sys2Proof.Machine.execForwardReceipt core line s
  | .invalidationAck core line => Sys2Proof.Machine.execInvalidationAck core line s
  | .dataReceipt core line => Sys2Proof.Machine.execDataReceipt core line s
  | .directoryEviction line => Sys2Proof.Machine.execDirectoryEviction line s
  | .softWriteBack core line => Sys2Proof.Machine.execSoftWriteBack core line s
  | .drainRequest core line => Sys2Proof.Machine.execDrainRequest core line s
  | .drainAck core line => Sys2Proof.Machine.execDrainAck core line s
  | .partialEviction core line => Sys2Proof.Machine.execPartialEviction core line s
  | .scopeMissEvent ring => Sys2Proof.Machine.execScopeMissEvent ring s
  | .copyKick core ch parity => Sys2Proof.Machine.execCopyKick core ch parity s
  | .copyCompletion core ch => Sys2Proof.Machine.execCopyCompletion core ch s
  | .prefComplete core q => Sys2Proof.Machine.execPrefComplete core q s
  | .laneResidueFailure f => Sys2Proof.Machine.execLaneResidueFailure f s
  | .scalarResidueFailure core pc => Sys2Proof.Machine.execScalarResidueFailure core pc s
  | .detectedError core e => Sys2Proof.Machine.execDetectedError core e s
  | .memoryUncorrectableError e => Sys2Proof.Machine.execMemoryUncorrectableError e s
  | .correctableError e => Sys2Proof.Machine.execCorrectableError e s
  | .icacheParityError core line => Sys2Proof.Machine.execIcacheParityError core line s
  | .padWord => Sys2Proof.Machine.execPadWord s
  | .ssyncComplete j r sc unit => Sys2Proof.Machine.execSsyncComplete j r sc unit s
  | .drainComplete core => Sys2Proof.Machine.execDrainComplete core s
  | .mwaitWake core => Sys2Proof.Machine.execMwaitWake core s
  | .qpushEvent core => Sys2Proof.Machine.execQpushEvent core s
  | .qpopEvent core => Sys2Proof.Machine.execQpopEvent core s
  | .syswRb o => Sys2Proof.Machine.execSyswRb o s
  | .syswSmev o => Sys2Proof.Machine.execSyswSmev o s
  | .syswTstk o => Sys2Proof.Machine.execSyswTstk o s
  | .syswSrseed o => Sys2Proof.Machine.execSyswSrseed o s
  | .syswVl o => Sys2Proof.Machine.execSyswVl o s
  | .syswVtype o => Sys2Proof.Machine.execSyswVtype o s
  | .syswTshape o => Sys2Proof.Machine.execSyswTshape o s
  | .syswSpecst o => Sys2Proof.Machine.execSyswSpecst o s
  | .add o => Sys2Proof.Machine.execAdd o s
  | .sub o => Sys2Proof.Machine.execSub o s
  | .mul o => Sys2Proof.Machine.execMul o s
  | .mulh o => Sys2Proof.Machine.execMulh o s
  | .div o => Sys2Proof.Machine.execDiv o s
  | .rem o => Sys2Proof.Machine.execRem o s
  | .and o => Sys2Proof.Machine.execAnd o s
  | .or o => Sys2Proof.Machine.execOr o s
  | .xor o => Sys2Proof.Machine.execXor o s
  | .andn o => Sys2Proof.Machine.execAndn o s
  | .sll o => Sys2Proof.Machine.execSll o s
  | .srl o => Sys2Proof.Machine.execSrl o s
  | .sra o => Sys2Proof.Machine.execSra o s
  | .rol o => Sys2Proof.Machine.execRol o s
  | .min o => Sys2Proof.Machine.execMin o s
  | .max o => Sys2Proof.Machine.execMax o s
  | .adds o => Sys2Proof.Machine.execAdds o s
  | .subs o => Sys2Proof.Machine.execSubs o s
  | .seq o => Sys2Proof.Machine.execSeq o s
  | .slt o => Sys2Proof.Machine.execSlt o s
  | .sle o => Sys2Proof.Machine.execSle o s
  | .sel o => Sys2Proof.Machine.execSel o s
  | .clz o => Sys2Proof.Machine.execClz o s
  | .ctz o => Sys2Proof.Machine.execCtz o s
  | .popc o => Sys2Proof.Machine.execPopc o s
  | .ext o => Sys2Proof.Machine.execExt o s
  | .mov o => Sys2Proof.Machine.execMov o s
  | .addi o => Sys2Proof.Machine.execAddi o s
  | .andi o => Sys2Proof.Machine.execAndi o s
  | .ori o => Sys2Proof.Machine.execOri o s
  | .xori o => Sys2Proof.Machine.execXori o s
  | .slli o => Sys2Proof.Machine.execSlli o s
  | .srli o => Sys2Proof.Machine.execSrli o s
  | .srai o => Sys2Proof.Machine.execSrai o s
  | .slti o => Sys2Proof.Machine.execSlti o s
  | .sltui o => Sys2Proof.Machine.execSltui o s
  | .li o => Sys2Proof.Machine.execLi o s
  | .lih o => Sys2Proof.Machine.execLih o s
  | .liImm64 o => Sys2Proof.Machine.execLiImm64 o s
  | .lpc o => Sys2Proof.Machine.execLpc o s
  | .fadd o => Sys2Proof.Machine.execFadd o s
  | .fsub o => Sys2Proof.Machine.execFsub o s
  | .fmul o => Sys2Proof.Machine.execFmul o s
  | .fdiv o => Sys2Proof.Machine.execFdiv o s
  | .fsqrt o => Sys2Proof.Machine.execFsqrt o s
  | .fma o => Sys2Proof.Machine.execFma o s
  | .fmin o => Sys2Proof.Machine.execFmin o s
  | .fmax o => Sys2Proof.Machine.execFmax o s
  | .fsgn o => Sys2Proof.Machine.execFsgn o s
  | .feq o => Sys2Proof.Machine.execFeq o s
  | .flt o => Sys2Proof.Machine.execFlt o s
  | .fle o => Sys2Proof.Machine.execFle o s
  | .fclass o => Sys2Proof.Machine.execFclass o s
  | .fcvt o => Sys2Proof.Machine.execFcvt o s
  | .fcvti o => Sys2Proof.Machine.execFcvti o s
  | .ficvt o => Sys2Proof.Machine.execFicvt o s
  | .nop o => Sys2Proof.Machine.execNop o s
  | .jr o => Sys2Proof.Machine.execJr o s
  | .jalr o => Sys2Proof.Machine.execJalr o s
  | .ret o => Sys2Proof.Machine.execRet o s
  | .b o => Sys2Proof.Machine.execB o s
  | .beq o => Sys2Proof.Machine.execBeq o s
  | .bne o => Sys2Proof.Machine.execBne o s
  | .blt o => Sys2Proof.Machine.execBlt o s
  | .bge o => Sys2Proof.Machine.execBge o s
  | .bltu o => Sys2Proof.Machine.execBltu o s
  | .bgeu o => Sys2Proof.Machine.execBgeu o s
  | .bpt o => Sys2Proof.Machine.execBpt o s
  | .bpf o => Sys2Proof.Machine.execBpf o s
  | .call o => Sys2Proof.Machine.execCall o s
  | .ld o => Sys2Proof.Machine.execLd o s
  | .ldp o => Sys2Proof.Machine.execLdp o s
  | .st o => Sys2Proof.Machine.execSt o s
  | .stp o => Sys2Proof.Machine.execStp o s
  | .fst o => Sys2Proof.Machine.execFst o s
  | .amoadd o => Sys2Proof.Machine.execAmoadd o s
  | .amoand o => Sys2Proof.Machine.execAmoand o s
  | .amoor o => Sys2Proof.Machine.execAmoor o s
  | .amoxor o => Sys2Proof.Machine.execAmoxor o s
  | .amoswap o => Sys2Proof.Machine.execAmoswap o s
  | .amocas o => Sys2Proof.Machine.execAmocas o s
  | .amomin o => Sys2Proof.Machine.execAmomin o s
  | .amomax o => Sys2Proof.Machine.execAmomax o s
  | .amofadd o => Sys2Proof.Machine.execAmofadd o s
  | .amofmax o => Sys2Proof.Machine.execAmofmax o s
  | .fenceAcq o => Sys2Proof.Machine.execFenceAcq o s
  | .fenceRel o => Sys2Proof.Machine.execFenceRel o s
  | .fenceFull o => Sys2Proof.Machine.execFenceFull o s
  | .ssync o => Sys2Proof.Machine.execSsync o s
  | .relWiden o => Sys2Proof.Machine.execRelWiden o s
  | .sysr o => Sys2Proof.Machine.execSysr o s
  | .sysw o => Sys2Proof.Machine.execSysw o s
  | .tret => Sys2Proof.Machine.execTret s
  | .uret => Sys2Proof.Machine.execUret s
  | .setvl o => Sys2Proof.Machine.execSetvl o s
  | .setvt o => Sys2Proof.Machine.execSetvt o s
  | .vloop o => Sys2Proof.Machine.execVloop o s
  | .vlend o => Sys2Proof.Machine.execVlend o s
  | .vadd o => Sys2Proof.Machine.execVadd o s
  | .vsub o => Sys2Proof.Machine.execVsub o s
  | .vmul o => Sys2Proof.Machine.execVmul o s
  | .vmulh o => Sys2Proof.Machine.execVmulh o s
  | .vdiv o => Sys2Proof.Machine.execVdiv o s
  | .vrem o => Sys2Proof.Machine.execVrem o s
  | .vand o => Sys2Proof.Machine.execVand o s
  | .vor o => Sys2Proof.Machine.execVor o s
  | .vxor o => Sys2Proof.Machine.execVxor o s
  | .vandn o => Sys2Proof.Machine.execVandn o s
  | .vsll o => Sys2Proof.Machine.execVsll o s
  | .vsrl o => Sys2Proof.Machine.execVsrl o s
  | .vsra o => Sys2Proof.Machine.execVsra o s
  | .vmin o => Sys2Proof.Machine.execVmin o s
  | .vmax o => Sys2Proof.Machine.execVmax o s
  | .vadds o => Sys2Proof.Machine.execVadds o s
  | .vsubs o => Sys2Proof.Machine.execVsubs o s
  | .vabs o => Sys2Proof.Machine.execVabs o s
  | .vneg o => Sys2Proof.Machine.execVneg o s
  | .vmov o => Sys2Proof.Machine.execVmov o s
  | .vsel o => Sys2Proof.Machine.execVsel o s
  | .vext o => Sys2Proof.Machine.execVext o s
  | .vaddScalar o => Sys2Proof.Machine.execVaddScalar o s
  | .vsubScalar o => Sys2Proof.Machine.execVsubScalar o s
  | .vmulScalar o => Sys2Proof.Machine.execVmulScalar o s
  | .vmulhScalar o => Sys2Proof.Machine.execVmulhScalar o s
  | .vdivScalar o => Sys2Proof.Machine.execVdivScalar o s
  | .vremScalar o => Sys2Proof.Machine.execVremScalar o s
  | .vandScalar o => Sys2Proof.Machine.execVandScalar o s
  | .vorScalar o => Sys2Proof.Machine.execVorScalar o s
  | .vxorScalar o => Sys2Proof.Machine.execVxorScalar o s
  | .vandnScalar o => Sys2Proof.Machine.execVandnScalar o s
  | .vsllScalar o => Sys2Proof.Machine.execVsllScalar o s
  | .vsrlScalar o => Sys2Proof.Machine.execVsrlScalar o s
  | .vsraScalar o => Sys2Proof.Machine.execVsraScalar o s
  | .vminScalar o => Sys2Proof.Machine.execVminScalar o s
  | .vmaxScalar o => Sys2Proof.Machine.execVmaxScalar o s
  | .vaddsScalar o => Sys2Proof.Machine.execVaddsScalar o s
  | .vsubsScalar o => Sys2Proof.Machine.execVsubsScalar o s
  | .vselScalar o => Sys2Proof.Machine.execVselScalar o s
  | .vextScalar o => Sys2Proof.Machine.execVextScalar o s
  | .vaddImm o => Sys2Proof.Machine.execVaddImm o s
  | .vsubImm o => Sys2Proof.Machine.execVsubImm o s
  | .vmulImm o => Sys2Proof.Machine.execVmulImm o s
  | .vmulhImm o => Sys2Proof.Machine.execVmulhImm o s
  | .vdivImm o => Sys2Proof.Machine.execVdivImm o s
  | .vremImm o => Sys2Proof.Machine.execVremImm o s
  | .vandImm o => Sys2Proof.Machine.execVandImm o s
  | .vorImm o => Sys2Proof.Machine.execVorImm o s
  | .vxorImm o => Sys2Proof.Machine.execVxorImm o s
  | .vandnImm o => Sys2Proof.Machine.execVandnImm o s
  | .vsllImm o => Sys2Proof.Machine.execVsllImm o s
  | .vsrlImm o => Sys2Proof.Machine.execVsrlImm o s
  | .vsraImm o => Sys2Proof.Machine.execVsraImm o s
  | .vminImm o => Sys2Proof.Machine.execVminImm o s
  | .vmaxImm o => Sys2Proof.Machine.execVmaxImm o s
  | .vaddsImm o => Sys2Proof.Machine.execVaddsImm o s
  | .vsubsImm o => Sys2Proof.Machine.execVsubsImm o s
  | .vselImm o => Sys2Proof.Machine.execVselImm o s
  | .vextImm o => Sys2Proof.Machine.execVextImm o s
  | .vfadd o => Sys2Proof.Machine.execVfadd o s
  | .vfsub o => Sys2Proof.Machine.execVfsub o s
  | .vfmul o => Sys2Proof.Machine.execVfmul o s
  | .vfdiv o => Sys2Proof.Machine.execVfdiv o s
  | .vfsqrt o => Sys2Proof.Machine.execVfsqrt o s
  | .vfma o => Sys2Proof.Machine.execVfma o s
  | .vfms o => Sys2Proof.Machine.execVfms o s
  | .vfnma o => Sys2Proof.Machine.execVfnma o s
  | .vfmin o => Sys2Proof.Machine.execVfmin o s
  | .vfmax o => Sys2Proof.Machine.execVfmax o s
  | .vfsgn o => Sys2Proof.Machine.execVfsgn o s
  | .vfabs o => Sys2Proof.Machine.execVfabs o s
  | .vfneg o => Sys2Proof.Machine.execVfneg o s
  | .vfaddScalar o => Sys2Proof.Machine.execVfaddScalar o s
  | .vfsubScalar o => Sys2Proof.Machine.execVfsubScalar o s
  | .vfmulScalar o => Sys2Proof.Machine.execVfmulScalar o s
  | .vfdivScalar o => Sys2Proof.Machine.execVfdivScalar o s
  | .vfmaScalar o => Sys2Proof.Machine.execVfmaScalar o s
  | .vfmsScalar o => Sys2Proof.Machine.execVfmsScalar o s
  | .vfnmaScalar o => Sys2Proof.Machine.execVfnmaScalar o s
  | .vfminScalar o => Sys2Proof.Machine.execVfminScalar o s
  | .vfmaxScalar o => Sys2Proof.Machine.execVfmaxScalar o s
  | .vfsgnScalar o => Sys2Proof.Machine.execVfsgnScalar o s
  | .vcmpEq o => Sys2Proof.Machine.execVcmpEq o s
  | .vcmpNe o => Sys2Proof.Machine.execVcmpNe o s
  | .vcmpLt o => Sys2Proof.Machine.execVcmpLt o s
  | .vcmpLe o => Sys2Proof.Machine.execVcmpLe o s
  | .vcmpGt o => Sys2Proof.Machine.execVcmpGt o s
  | .vcmpGe o => Sys2Proof.Machine.execVcmpGe o s
  | .vcmpUn o => Sys2Proof.Machine.execVcmpUn o s
  | .vfclass o => Sys2Proof.Machine.execVfclass o s
  | .pand o => Sys2Proof.Machine.execPand o s
  | .por o => Sys2Proof.Machine.execPor o s
  | .pxor o => Sys2Proof.Machine.execPxor o s
  | .pandn o => Sys2Proof.Machine.execPandn o s
  | .pnot o => Sys2Proof.Machine.execPnot o s
  | .pmov o => Sys2Proof.Machine.execPmov o s
  | .pfirst o => Sys2Proof.Machine.execPfirst o s
  | .pcount o => Sys2Proof.Machine.execPcount o s
  | .pset o => Sys2Proof.Machine.execPset o s
  | .vperm o => Sys2Proof.Machine.execVperm o s
  | .vbcast o => Sys2Proof.Machine.execVbcast o s
  | .vslideup o => Sys2Proof.Machine.execVslideup o s
  | .vslidedn o => Sys2Proof.Machine.execVslidedn o s
  | .vcompress o => Sys2Proof.Machine.execVcompress o s
  | .vexpand o => Sys2Proof.Machine.execVexpand o s
  | .vextr o => Sys2Proof.Machine.execVextr o s
  | .vins o => Sys2Proof.Machine.execVins o s
  | .vrev o => Sys2Proof.Machine.execVrev o s
  | .vredoSum o => Sys2Proof.Machine.execVredoSum o s
  | .vredtSum o => Sys2Proof.Machine.execVredtSum o s
  | .vredMax o => Sys2Proof.Machine.execVredMax o s
  | .vredMin o => Sys2Proof.Machine.execVredMin o s
  | .vredAnd o => Sys2Proof.Machine.execVredAnd o s
  | .vredOr o => Sys2Proof.Machine.execVredOr o s
  | .vredXor o => Sys2Proof.Machine.execVredXor o s
  | .vredsSum o => Sys2Proof.Machine.execVredsSum o s
  | .vredsMean o => Sys2Proof.Machine.execVredsMean o s
  | .vsscanSum o => Sys2Proof.Machine.execVsscanSum o s
  | .vsscanMax o => Sys2Proof.Machine.execVsscanMax o s
  | .vsredSum o => Sys2Proof.Machine.execVsredSum o s
  | .vsredMax o => Sys2Proof.Machine.execVsredMax o s
  | .vcvt o => Sys2Proof.Machine.execVcvt o s
  | .vcvti o => Sys2Proof.Machine.execVcvti o s
  | .vicvt o => Sys2Proof.Machine.execVicvt o s
  | .vquant o => Sys2Proof.Machine.execVquant o s
  | .vld o => Sys2Proof.Machine.execVld o s
  | .vst o => Sys2Proof.Machine.execVst o s
  | .vlds o => Sys2Proof.Machine.execVlds o s
  | .vsts o => Sys2Proof.Machine.execVsts o s
  | .vgath o => Sys2Proof.Machine.execVgath o s
  | .vscat o => Sys2Proof.Machine.execVscat o s
  | .vldff o => Sys2Proof.Machine.execVldff o s
  | .vldt o => Sys2Proof.Machine.execVldt o s
  | .matt o => Sys2Proof.Machine.execMatt o s
  | .mdet o => Sys2Proof.Machine.execMdet o s
  | .mzero o => Sys2Proof.Machine.execMzero o s
  | .mma o => Sys2Proof.Machine.execMma o s
  | .mmam o => Sys2Proof.Machine.execMmam o s
  | .mmaBlock o => Sys2Proof.Machine.execMmaBlock o s
  | .mmamBlock o => Sys2Proof.Machine.execMmamBlock o s
  | .mldt o => Sys2Proof.Machine.execMldt o s
  | .mstt o => Sys2Proof.Machine.execMstt o s
  | .mmov o => Sys2Proof.Machine.execMmov o s
  | .mmovWr o => Sys2Proof.Machine.execMmovWr o s
  | .fork o => Sys2Proof.Machine.execFork o s
  | .chk => Sys2Proof.Machine.execChk s
  | .join => Sys2Proof.Machine.execJoin s
  | .nospec => Sys2Proof.Machine.execNospec s
  | .ind o => Sys2Proof.Machine.execInd o s
  | .rgnBegin o => Sys2Proof.Machine.execRgnBegin o s
  | .rgnKeep o => Sys2Proof.Machine.execRgnKeep o s
  | .rgnEnd => Sys2Proof.Machine.execRgnEnd s
  | .send o => Sys2Proof.Machine.execSend o s
  | .sends o => Sys2Proof.Machine.execSends o s
  | .mpoll o => Sys2Proof.Machine.execMpoll o s
  | .mwait o => Sys2Proof.Machine.execMwait o s
  | .mpop o => Sys2Proof.Machine.execMpop o s
  | .ratom o => Sys2Proof.Machine.execRatom o s
  | .cpy o => Sys2Proof.Machine.execCpy o s
  | .cpyv o => Sys2Proof.Machine.execCpyv o s
  | .drain o => Sys2Proof.Machine.execDrain o s
  | .pref o => Sys2Proof.Machine.execPref o s
  | .qwait o => Sys2Proof.Machine.execQwait o s
  | .arm o => Sys2Proof.Machine.execArm o s
  | .qpush o => Sys2Proof.Machine.execQpush o s
  | .qpop o => Sys2Proof.Machine.execQpop o s
  | .exit o => Sys2Proof.Machine.execExit o s
  | .powerOff => Sys2Proof.Machine.execPowerOff s
  | .coreRetentionSleep core => Sys2Proof.Machine.execCoreRetentionSleep core s
  | .ideKmRequest l stream switch => Sys2Proof.Machine.execIdeKmRequest l stream switch s

end Sys2Proof.Machine
end

