-- ==== Sys2Proof/Decode.lean ====
section
/-! DEFINITION. The decoder of R292–R306, total on any bytes, and the encoder written from the same layouts.
`decodeWords` follows the order of R306; an illegal word is rejected by the sub-cause of trap 0x01.

Lean's compiler cannot emit code that builds a constructor numbered above 244 of one inductive type, and `Instr` has
395, so the functions that build an `Instr` are marked noncomputable. The kernel evaluates them as any other. -/

namespace Sys2Proof

noncomputable section

/-- The fields of the common layout (R295) and what stands beyond bit 63 (R296). -/
structure Raw where
  d : Reg := 0
  a : Reg := 0
  b : Reg := 0
  c : Reg := 0
  ca : Bool := false
  cb : Bool := false
  cc : Bool := false
  gn : Bool := false
  g : Fin 16 := 0
  fn : Fin 256 := 0
  ty : Fin 64 := 0
  m : Fin 256 := 0
  x : BitVec 64 := 0
  deriving DecidableEq, Repr

/-- The fields of the scalar-immediate form (R296). -/
structure RawSI where
  d : Reg := 0
  a : Reg := 0
  gn : Bool := false
  g : Fin 16 := 0
  fn5 : Fin 32 := 0
  imm : BitVec 32 := 0
  deriving DecidableEq, Repr

/-- The fields of the branch form (R296). -/
structure RawBR where
  d : Reg := 0
  a : Reg := 0
  b : Reg := 0
  cnd : Fin 16 := 0
  off : BitVec 32 := 0
  deriving DecidableEq, Repr

/-- The two words of the common layout; `len` is the length code of R292. -/
def Raw.word0 (len op : Nat) (r : Raw) : Nat :=
  len + 4 * op + 1024 * r.d.val + 65536 * r.a.val + 4194304 * r.b.val + 268435456 * (r.c.val % 16)

/-- Bits [63:32] of the common layout. -/
def Raw.word1 (r : Raw) : Nat :=
  r.c.val / 16 + 4 * r.g.val + 64 * r.gn.toNat + 128 * r.ca.toNat + 256 * r.cb.toNat + 512 * r.cc.toNat +
    1024 * r.fn.val + 262144 * r.ty.val + 16777216 * r.m.val

/-- The fields of the common layout read from its words (R295). -/
def Raw.ofWords (w0 w1 w2 w3 : Nat) : Raw :=
  { d := Fin.ofNat 64 (w0 / 1024), a := Fin.ofNat 64 (w0 / 65536), b := Fin.ofNat 64 (w0 / 4194304),
    c := Fin.ofNat 64 (w0 / 268435456 % 16 + 16 * (w1 % 4)),
    ca := natBit w1 7, cb := natBit w1 8, cc := natBit w1 9, gn := natBit w1 6, g := Fin.ofNat 16 (w1 / 4),
    fn := Fin.ofNat 256 (w1 / 1024), ty := Fin.ofNat 64 (w1 / 262144), m := Fin.ofNat 256 (w1 / 16777216),
    x := BitVec.ofNat 64 (w2 % 4294967296 + 4294967296 * w3) }

/-- The words of the scalar-immediate form. -/
def RawSI.words (op : Nat) (r : RawSI) : List Nat :=
  [4 * op + 1024 * r.d.val + 65536 * r.a.val + 4194304 * r.g.val + 67108864 * r.gn.toNat +
    134217728 * r.fn5.val, r.imm.toNat]

/-- The fields of the scalar-immediate form. -/
def RawSI.ofWords (w0 w1 : Nat) : RawSI :=
  { d := Fin.ofNat 64 (w0 / 1024), a := Fin.ofNat 64 (w0 / 65536), gn := natBit w0 26,
    g := Fin.ofNat 16 (w0 / 4194304), fn5 := Fin.ofNat 32 (w0 / 134217728), imm := BitVec.ofNat 32 w1 }

/-- The words of the branch form. -/
def RawBR.words (op : Nat) (r : RawBR) : List Nat :=
  [4 * op + 1024 * r.d.val + 65536 * r.a.val + 4194304 * r.b.val + 268435456 * r.cnd.val, r.off.toNat]

/-- The fields of the branch form. -/
def RawBR.ofWords (w0 w1 : Nat) : RawBR :=
  { d := Fin.ofNat 64 (w0 / 1024), a := Fin.ofNat 64 (w0 / 65536), b := Fin.ofNat 64 (w0 / 4194304),
    cnd := Fin.ofNat 16 (w0 / 268435456), off := BitVec.ofNat 32 w1 }

/-- A decoded term, with what is wrong beyond the term itself: an unused field or modifier bit (sub-cause 2),
a type code that names no type or stands where none may (8). -/
structure Parsed where
  i : Instr
  b2 : Bool := false
  b8 : Bool := false
  deriving DecidableEq, Repr

/-- What a type code stands for while the other checks are made; `.mx4` stands in for a code without a type. -/
def tyOr (c : Fin 64) : Ty := (Ty.ofCode c).getD .mx4

/-- A code that names no type. -/
def tyBad (c : Fin 64) : Bool := (Ty.ofCode c).isNone

/-- The guard of a common-layout word. -/
def Raw.guard (r : Raw) : Guard := { g := r.g, gn := r.gn }

/-- Bit `n` of the modifier. -/
def Raw.mb (r : Raw) (n : Nat) : Bool := natBit r.m.val n

/-- The rounding code m[2:0] (R301). -/
def Raw.rm (r : Raw) : Fin 8 := Fin.ofNat 8 r.m.val

/-- The scope code m[3:0] of class M (R301). -/
def Raw.sc (r : Raw) : Fin 16 := Fin.ofNat 16 r.m.val

/-- The modifier of class M (R301). -/
def mOf (sc : Fin 16) (fr acq rel sand : Bool) : Fin 256 :=
  Fin.ofNat 256 (sc.val + 16 * fr.toNat + 32 * acq.toNat + 64 * rel.toNat + 128 * sand.toNat)

/-- imm32 as it stands beyond bit 63. -/
def Raw.imm (r : Raw) : BitVec 32 := r.x.setWidth 32

/-- The fields that form `XXX` fills. -/
def XXX.enc (fn : Fin 256) (o : XXX) : Raw :=
  { fn := fn,
    d := o.d, a := o.a, b := o.b, g := o.gd.g, gn := o.gd.gn, ty := o.ty.code }

/-- Form `XXX` read from its fields; what it does not use must be zero (R297). -/
def XXX.dec (mk : XXX → Instr) (r : Raw) : Parsed :=
  { i := mk { d := r.d, a := r.a, b := r.b, gd := r.guard, ty := tyOr r.ty },
    b2 := r.c != 0 || r.ca || r.cb || r.cc || r.x != 0 || r.m != 0,
    b8 := tyBad r.ty }

/-- The fields that form `XX` fills. -/
def XX.enc (fn : Fin 256) (o : XX) : Raw :=
  { fn := fn,
    d := o.d, a := o.a, g := o.gd.g, gn := o.gd.gn, ty := o.ty.code }

/-- Form `XX` read from its fields; what it does not use must be zero (R297). -/
def XX.dec (mk : XX → Instr) (r : Raw) : Parsed :=
  { i := mk { d := r.d, a := r.a, gd := r.guard, ty := tyOr r.ty },
    b2 := r.b != 0 || r.c != 0 || r.ca || r.cb || r.cc || r.x != 0 || r.m != 0,
    b8 := tyBad r.ty }

/-- The fields that form `XXXX` fills. -/
def XXXX.enc (fn : Fin 256) (o : XXXX) : Raw :=
  { fn := fn,
    d := o.d, a := o.a, b := o.b, c := o.c, g := o.gd.g, gn := o.gd.gn, ty := o.ty.code }

/-- Form `XXXX` read from its fields; what it does not use must be zero (R297). -/
def XXXX.dec (mk : XXXX → Instr) (r : Raw) : Parsed :=
  { i := mk { d := r.d, a := r.a, b := r.b, c := r.c, gd := r.guard, ty := tyOr r.ty },
    b2 := r.ca || r.cb || r.cc || r.x != 0 || r.m != 0,
    b8 := tyBad r.ty }

/-- The fields that form `XI64` fills. -/
def XI64.enc (fn : Fin 256) (o : XI64) : Raw :=
  { fn := fn,
    d := o.d, g := o.gd.g, gn := o.gd.gn, x := o.imm }

/-- Form `XI64` read from its fields; what it does not use must be zero (R297). -/
def XI64.dec (mk : XI64 → Instr) (r : Raw) : Parsed :=
  { i := mk { d := r.d, gd := r.guard, imm := r.x },
    b2 := r.a != 0 || r.b != 0 || r.c != 0 || r.ca || r.cb || r.cc || r.m != 0,
    b8 := r.ty != 0 }

/-- The fields that form `FXXX` fills. -/
def FXXX.enc (fn : Fin 256) (o : FXXX) : Raw :=
  { fn := fn,
    d := o.d, a := o.a, b := o.b, g := o.gd.g, gn := o.gd.gn, ty := o.ty.code, m := Fin.ofNat 256 o.rm.val }

/-- Form `FXXX` read from its fields; what it does not use must be zero (R297). -/
def FXXX.dec (mk : FXXX → Instr) (r : Raw) : Parsed :=
  { i := mk { d := r.d, a := r.a, b := r.b, gd := r.guard, ty := tyOr r.ty, rm := r.rm },
    b2 := r.c != 0 || r.ca || r.cb || r.cc || r.x != 0 || 8 ≤ r.m.val,
    b8 := tyBad r.ty }

/-- The fields that form `FXX` fills. -/
def FXX.enc (fn : Fin 256) (o : FXX) : Raw :=
  { fn := fn,
    d := o.d, a := o.a, g := o.gd.g, gn := o.gd.gn, ty := o.ty.code, m := Fin.ofNat 256 o.rm.val }

/-- Form `FXX` read from its fields; what it does not use must be zero (R297). -/
def FXX.dec (mk : FXX → Instr) (r : Raw) : Parsed :=
  { i := mk { d := r.d, a := r.a, gd := r.guard, ty := tyOr r.ty, rm := r.rm },
    b2 := r.b != 0 || r.c != 0 || r.ca || r.cb || r.cc || r.x != 0 || 8 ≤ r.m.val,
    b8 := tyBad r.ty }

/-- The fields that form `FXXXX` fills. -/
def FXXXX.enc (fn : Fin 256) (o : FXXXX) : Raw :=
  { fn := fn,
    d := o.d, a := o.a, b := o.b, c := o.c, g := o.gd.g, gn := o.gd.gn, ty := o.ty.code,
    m := Fin.ofNat 256 o.rm.val }

/-- Form `FXXXX` read from its fields; what it does not use must be zero (R297). -/
def FXXXX.dec (mk : FXXXX → Instr) (r : Raw) : Parsed :=
  { i := mk { d := r.d, a := r.a, b := r.b, c := r.c, gd := r.guard, ty := tyOr r.ty, rm := r.rm },
    b2 := r.ca || r.cb || r.cc || r.x != 0 || 8 ≤ r.m.val,
    b8 := tyBad r.ty }

/-- The fields that form `FSgn` fills. -/
def FSgn.enc (fn : Fin 256) (o : FSgn) : Raw :=
  { fn := fn,
    d := o.d, a := o.a, b := o.b, g := o.gd.g, gn := o.gd.gn, ty := o.ty.code,
    m := Fin.ofNat 256 (o.rm.val + 8 * o.sub.val) }

/-- Form `FSgn` read from its fields; what it does not use must be zero (R297). -/
def FSgn.dec (mk : FSgn → Instr) (r : Raw) : Parsed :=
  { i := mk { d := r.d, a := r.a, b := r.b, gd := r.guard, ty := tyOr r.ty, rm := r.rm, sub := Fin.ofNat 4 (r.m.val / 8) },
    b2 := r.c != 0 || r.ca || r.cb || r.cc || r.x != 0 || 32 ≤ r.m.val,
    b8 := tyBad r.ty }

/-- The fields that form `FCvt` fills. -/
def FCvt.enc (fn : Fin 256) (o : FCvt) : Raw :=
  { fn := fn,
    d := o.d, a := o.a, c := o.src.code, g := o.gd.g, gn := o.gd.gn, ty := o.ty.code,
    m := Fin.ofNat 256 o.rm.val }

/-- Form `FCvt` read from its fields; what it does not use must be zero (R297). -/
def FCvt.dec (mk : FCvt → Instr) (r : Raw) : Parsed :=
  { i := mk { d := r.d, a := r.a, src := tyOr r.c, gd := r.guard, ty := tyOr r.ty, rm := r.rm },
    b2 := r.b != 0 || r.ca || r.cb || r.cc || r.x != 0 || 8 ≤ r.m.val,
    b8 := tyBad r.c || tyBad r.ty }

/-- The fields that form `OnlyGuard` fills. -/
def OnlyGuard.enc (fn : Fin 256) (o : OnlyGuard) : Raw :=
  { fn := fn,
    g := o.gd.g, gn := o.gd.gn }

/-- Form `OnlyGuard` read from its fields; what it does not use must be zero (R297). -/
def OnlyGuard.dec (mk : OnlyGuard → Instr) (r : Raw) : Parsed :=
  { i := mk { gd := r.guard },
    b2 := r.d != 0 || r.a != 0 || r.b != 0 || r.c != 0 || r.ca || r.cb || r.cc || r.x != 0 || r.m != 0,
    b8 := r.ty != 0 }

/-- The fields that form `JumpReg` fills. -/
def JumpReg.enc (fn : Fin 256) (o : JumpReg) : Raw :=
  { fn := fn,
    a := o.a, g := o.gd.g, gn := o.gd.gn }

/-- Form `JumpReg` read from its fields; what it does not use must be zero (R297). -/
def JumpReg.dec (mk : JumpReg → Instr) (r : Raw) : Parsed :=
  { i := mk { a := r.a, gd := r.guard },
    b2 := r.d != 0 || r.b != 0 || r.c != 0 || r.ca || r.cb || r.cc || r.x != 0 || r.m != 0,
    b8 := r.ty != 0 }

/-- The fields that form `JumpLink` fills. -/
def JumpLink.enc (fn : Fin 256) (o : JumpLink) : Raw :=
  { fn := fn,
    d := o.d, a := o.a, g := o.gd.g, gn := o.gd.gn }

/-- Form `JumpLink` read from its fields; what it does not use must be zero (R297). -/
def JumpLink.dec (mk : JumpLink → Instr) (r : Raw) : Parsed :=
  { i := mk { d := r.d, a := r.a, gd := r.guard },
    b2 := r.b != 0 || r.c != 0 || r.ca || r.cb || r.cc || r.x != 0 || r.m != 0,
    b8 := r.ty != 0 }

/-- The fields that form `LdF` fills. -/
def LdF.enc (fn : Fin 256) (o : LdF) : Raw :=
  { fn := fn,
    d := o.d, a := o.a, g := o.gd.g, gn := o.gd.gn, ty := o.ty.code, x := o.imm.setWidth 64,
    m := mOf o.sc o.fr o.acq false false }

/-- Form `LdF` read from its fields; what it does not use must be zero (R297). -/
def LdF.dec (mk : LdF → Instr) (r : Raw) : Parsed :=
  { i := mk { d := r.d, a := r.a, gd := r.guard, ty := tyOr r.ty, imm := r.imm, sc := r.sc, fr := r.mb 4, acq := r.mb 5 },
    b2 := r.b != 0 || r.c != 0 || r.ca || r.cb || r.cc || r.mb 6 || r.mb 7,
    b8 := tyBad r.ty }

/-- The fields that form `LdpF` fills. -/
def LdpF.enc (fn : Fin 256) (o : LdpF) : Raw :=
  { fn := fn,
    d := o.d, a := o.a, g := o.gd.g, gn := o.gd.gn, x := o.imm.setWidth 64, m := mOf o.sc o.fr o.acq false false }

/-- Form `LdpF` read from its fields; what it does not use must be zero (R297). -/
def LdpF.dec (mk : LdpF → Instr) (r : Raw) : Parsed :=
  { i := mk { d := r.d, a := r.a, gd := r.guard, imm := r.imm, sc := r.sc, fr := r.mb 4, acq := r.mb 5 },
    b2 := r.b != 0 || r.c != 0 || r.ca || r.cb || r.cc || r.mb 6 || r.mb 7,
    b8 := r.ty != 0 }

/-- The fields that form `StF` fills. -/
def StF.enc (fn : Fin 256) (o : StF) : Raw :=
  { fn := fn,
    a := o.a, b := o.b, g := o.gd.g, gn := o.gd.gn, ty := o.ty.code, x := o.imm.setWidth 64,
    m := mOf o.sc false false o.rel false }

/-- Form `StF` read from its fields; what it does not use must be zero (R297). -/
def StF.dec (mk : StF → Instr) (r : Raw) : Parsed :=
  { i := mk { a := r.a, b := r.b, gd := r.guard, ty := tyOr r.ty, imm := r.imm, sc := r.sc, rel := r.mb 6 },
    b2 := r.d != 0 || r.c != 0 || r.ca || r.cb || r.cc || r.mb 4 || r.mb 5 || r.mb 7,
    b8 := tyBad r.ty }

/-- The fields that form `StpF` fills. -/
def StpF.enc (fn : Fin 256) (o : StpF) : Raw :=
  { fn := fn,
    a := o.a, b := o.b, g := o.gd.g, gn := o.gd.gn, x := o.imm.setWidth 64,
    m := mOf o.sc false false o.rel false }

/-- Form `StpF` read from its fields; what it does not use must be zero (R297). -/
def StpF.dec (mk : StpF → Instr) (r : Raw) : Parsed :=
  { i := mk { a := r.a, b := r.b, gd := r.guard, imm := r.imm, sc := r.sc, rel := r.mb 6 },
    b2 := r.d != 0 || r.c != 0 || r.ca || r.cb || r.cc || r.mb 4 || r.mb 5 || r.mb 7,
    b8 := r.ty != 0 }

/-- The fields that form `FstF` fills. -/
def FstF.enc (fn : Fin 256) (o : FstF) : Raw :=
  { fn := fn,
    a := o.a, b := o.b, g := o.gd.g, gn := o.gd.gn, ty := o.ty.code, x := o.imm.setWidth 64,
    m := mOf o.sc false false false false }

/-- Form `FstF` read from its fields; what it does not use must be zero (R297). -/
def FstF.dec (mk : FstF → Instr) (r : Raw) : Parsed :=
  { i := mk { a := r.a, b := r.b, gd := r.guard, ty := tyOr r.ty, imm := r.imm, sc := r.sc },
    b2 := r.d != 0 || r.c != 0 || r.ca || r.cb || r.cc || r.mb 4 || r.mb 5 || r.mb 6 || r.mb 7,
    b8 := tyBad r.ty }

/-- The fields that form `AmoF` fills. -/
def AmoF.enc (fn : Fin 256) (o : AmoF) : Raw :=
  { fn := fn,
    d := o.d, a := o.a, b := o.b, g := o.gd.g, gn := o.gd.gn, ty := o.ty.code,
    m := mOf o.sc false o.acq o.rel false }

/-- Form `AmoF` read from its fields; what it does not use must be zero (R297). -/
def AmoF.dec (mk : AmoF → Instr) (r : Raw) : Parsed :=
  { i := mk { d := r.d, a := r.a, b := r.b, gd := r.guard, ty := tyOr r.ty, sc := r.sc, acq := r.mb 5, rel := r.mb 6 },
    b2 := r.c != 0 || r.ca || r.cb || r.cc || r.x != 0 || r.mb 4 || r.mb 7,
    b8 := tyBad r.ty }

/-- The fields that form `CasF` fills. -/
def CasF.enc (fn : Fin 256) (o : CasF) : Raw :=
  { fn := fn,
    d := o.d, a := o.a, b := o.b, c := o.c, g := o.gd.g, gn := o.gd.gn, ty := o.ty.code,
    m := mOf o.sc false o.acq o.rel false }

/-- Form `CasF` read from its fields; what it does not use must be zero (R297). -/
def CasF.dec (mk : CasF → Instr) (r : Raw) : Parsed :=
  { i := mk { d := r.d, a := r.a, b := r.b, c := r.c, gd := r.guard, ty := tyOr r.ty, sc := r.sc, acq := r.mb 5, rel := r.mb 6 },
    b2 := r.ca || r.cb || r.cc || r.x != 0 || r.mb 4 || r.mb 7,
    b8 := tyBad r.ty }

/-- The fields that form `ScopeF` fills. -/
def ScopeF.enc (fn : Fin 256) (o : ScopeF) : Raw :=
  { fn := fn,
    m := mOf o.sc false false false false }

/-- Form `ScopeF` read from its fields; what it does not use must be zero (R297). -/
def ScopeF.dec (mk : ScopeF → Instr) (r : Raw) : Parsed :=
  { i := mk { sc := r.sc },
    b2 := r.d != 0 || r.a != 0 || r.b != 0 || r.c != 0 || r.ca || r.cb || r.cc || r.g != 0 || r.gn ||
      r.x != 0 || r.mb 4 || r.mb 5 || r.mb 6 || r.mb 7,
    b8 := r.ty != 0 }

/-- The fields that form `WidenF` fills. -/
def WidenF.enc (fn : Fin 256) (o : WidenF) : Raw :=
  { fn := fn,
    a := o.a, m := mOf o.sc false false false false }

/-- Form `WidenF` read from its fields; what it does not use must be zero (R297). -/
def WidenF.dec (mk : WidenF → Instr) (r : Raw) : Parsed :=
  { i := mk { a := r.a, sc := r.sc },
    b2 := r.d != 0 || r.b != 0 || r.c != 0 || r.ca || r.cb || r.cc || r.g != 0 || r.gn || r.x != 0 ||
      r.mb 4 || r.mb 5 || r.mb 6 || r.mb 7,
    b8 := r.ty != 0 }

/-- The fields that form `SetF` fills. -/
def SetF.enc (fn : Fin 256) (o : SetF) : Raw :=
  { fn := fn,
    d := o.d, a := o.a, g := o.gd.g, gn := o.gd.gn, x := o.imm.setWidth 64 }

/-- Form `SetF` read from its fields; what it does not use must be zero (R297). -/
def SetF.dec (mk : SetF → Instr) (r : Raw) : Parsed :=
  { i := mk { d := r.d, a := r.a, gd := r.guard, imm := r.imm },
    b2 := r.b != 0 || r.c != 0 || r.ca || r.cb || r.cc || r.m != 0,
    b8 := r.ty != 0 }

/-- The fields that form `VVV` fills. -/
def VVV.enc (fn : Fin 256) (o : VVV) : Raw :=
  { fn := fn,
    d := o.d, a := o.a, b := o.b, ca := o.ca, cb := o.cb, g := o.gd.g, gn := o.gd.gn, ty := o.ty.code }

/-- Form `VVV` read from its fields; what it does not use must be zero (R297). -/
def VVV.dec (mk : VVV → Instr) (r : Raw) : Parsed :=
  { i := mk { d := r.d, a := r.a, b := r.b, ca := r.ca, cb := r.cb, gd := r.guard, ty := tyOr r.ty },
    b2 := r.c != 0 || r.cc || r.x != 0 || r.m != 0,
    b8 := tyBad r.ty }

/-- The fields that form `VV` fills. -/
def VV.enc (fn : Fin 256) (o : VV) : Raw :=
  { fn := fn,
    d := o.d, a := o.a, ca := o.ca, g := o.gd.g, gn := o.gd.gn, ty := o.ty.code }

/-- Form `VV` read from its fields; what it does not use must be zero (R297). -/
def VV.dec (mk : VV → Instr) (r : Raw) : Parsed :=
  { i := mk { d := r.d, a := r.a, ca := r.ca, gd := r.guard, ty := tyOr r.ty },
    b2 := r.b != 0 || r.c != 0 || r.cb || r.cc || r.x != 0 || r.m != 0,
    b8 := tyBad r.ty }

/-- The fields that form `VVVP` fills. -/
def VVVP.enc (fn : Fin 256) (o : VVVP) : Raw :=
  { fn := fn,
    d := o.d, a := o.a, b := o.b, c := o.c, ca := o.ca, cb := o.cb, g := o.gd.g, gn := o.gd.gn, ty := o.ty.code }

/-- Form `VVVP` read from its fields; what it does not use must be zero (R297). -/
def VVVP.dec (mk : VVVP → Instr) (r : Raw) : Parsed :=
  { i := mk { d := r.d, a := r.a, b := r.b, c := r.c, ca := r.ca, cb := r.cb, gd := r.guard, ty := tyOr r.ty },
    b2 := r.cc || r.x != 0 || r.m != 0,
    b8 := tyBad r.ty }

/-- The fields that form `VVX` fills. -/
def VVX.enc (fn : Fin 256) (o : VVX) : Raw :=
  { fn := fn,
    d := o.d, a := o.a, b := o.b, ca := o.ca, g := o.gd.g, gn := o.gd.gn, ty := o.ty.code }

/-- Form `VVX` read from its fields; what it does not use must be zero (R297). -/
def VVX.dec (mk : VVX → Instr) (r : Raw) : Parsed :=
  { i := mk { d := r.d, a := r.a, b := r.b, ca := r.ca, gd := r.guard, ty := tyOr r.ty },
    b2 := r.c != 0 || r.cb || r.cc || r.x != 0 || r.m != 0,
    b8 := tyBad r.ty }

/-- The fields that form `VVXP` fills. -/
def VVXP.enc (fn : Fin 256) (o : VVXP) : Raw :=
  { fn := fn,
    d := o.d, a := o.a, b := o.b, c := o.c, ca := o.ca, g := o.gd.g, gn := o.gd.gn, ty := o.ty.code }

/-- Form `VVXP` read from its fields; what it does not use must be zero (R297). -/
def VVXP.dec (mk : VVXP → Instr) (r : Raw) : Parsed :=
  { i := mk { d := r.d, a := r.a, b := r.b, c := r.c, ca := r.ca, gd := r.guard, ty := tyOr r.ty },
    b2 := r.cb || r.cc || r.x != 0 || r.m != 0,
    b8 := tyBad r.ty }

/-- The fields that form `VVI` fills. -/
def VVI.enc (fn : Fin 256) (o : VVI) : Raw :=
  { fn := fn,
    d := o.d, a := o.a, ca := o.ca, g := o.gd.g, gn := o.gd.gn, ty := o.ty.code, x := o.imm.setWidth 64 }

/-- Form `VVI` read from its fields; what it does not use must be zero (R297). -/
def VVI.dec (mk : VVI → Instr) (r : Raw) : Parsed :=
  { i := mk { d := r.d, a := r.a, ca := r.ca, gd := r.guard, ty := tyOr r.ty, imm := r.imm },
    b2 := r.b != 0 || r.c != 0 || r.cb || r.cc || r.m != 0,
    b8 := tyBad r.ty }

/-- The fields that form `VVIP` fills. -/
def VVIP.enc (fn : Fin 256) (o : VVIP) : Raw :=
  { fn := fn,
    d := o.d, a := o.a, c := o.c, ca := o.ca, g := o.gd.g, gn := o.gd.gn, ty := o.ty.code,
    x := o.imm.setWidth 64 }

/-- Form `VVIP` read from its fields; what it does not use must be zero (R297). -/
def VVIP.dec (mk : VVIP → Instr) (r : Raw) : Parsed :=
  { i := mk { d := r.d, a := r.a, c := r.c, ca := r.ca, gd := r.guard, ty := tyOr r.ty, imm := r.imm },
    b2 := r.b != 0 || r.cb || r.cc || r.m != 0,
    b8 := tyBad r.ty }

/-- The fields that form `FVVV` fills. -/
def FVVV.enc (fn : Fin 256) (o : FVVV) : Raw :=
  { fn := fn,
    d := o.d, a := o.a, b := o.b, ca := o.ca, cb := o.cb, g := o.gd.g, gn := o.gd.gn, ty := o.ty.code,
    m := Fin.ofNat 256 o.rm.val }

/-- Form `FVVV` read from its fields; what it does not use must be zero (R297). -/
def FVVV.dec (mk : FVVV → Instr) (r : Raw) : Parsed :=
  { i := mk { d := r.d, a := r.a, b := r.b, ca := r.ca, cb := r.cb, gd := r.guard, ty := tyOr r.ty, rm := r.rm },
    b2 := r.c != 0 || r.cc || r.x != 0 || 8 ≤ r.m.val,
    b8 := tyBad r.ty }

/-- The fields that form `FVV` fills. -/
def FVV.enc (fn : Fin 256) (o : FVV) : Raw :=
  { fn := fn,
    d := o.d, a := o.a, ca := o.ca, g := o.gd.g, gn := o.gd.gn, ty := o.ty.code, m := Fin.ofNat 256 o.rm.val }

/-- Form `FVV` read from its fields; what it does not use must be zero (R297). -/
def FVV.dec (mk : FVV → Instr) (r : Raw) : Parsed :=
  { i := mk { d := r.d, a := r.a, ca := r.ca, gd := r.guard, ty := tyOr r.ty, rm := r.rm },
    b2 := r.b != 0 || r.c != 0 || r.cb || r.cc || r.x != 0 || 8 ≤ r.m.val,
    b8 := tyBad r.ty }

/-- The fields that form `FVVVV` fills. -/
def FVVVV.enc (fn : Fin 256) (o : FVVVV) : Raw :=
  { fn := fn,
    d := o.d, a := o.a, b := o.b, c := o.c, ca := o.ca, cb := o.cb, cc := o.cc, g := o.gd.g, gn := o.gd.gn,
    ty := o.ty.code, m := Fin.ofNat 256 o.rm.val }

/-- Form `FVVVV` read from its fields; what it does not use must be zero (R297). -/
def FVVVV.dec (mk : FVVVV → Instr) (r : Raw) : Parsed :=
  { i := mk { d := r.d, a := r.a, b := r.b, c := r.c, ca := r.ca, cb := r.cb, cc := r.cc, gd := r.guard, ty := tyOr r.ty, rm := r.rm },
    b2 := r.x != 0 || 8 ≤ r.m.val,
    b8 := tyBad r.ty }

/-- The fields that form `FVSgn` fills. -/
def FVSgn.enc (fn : Fin 256) (o : FVSgn) : Raw :=
  { fn := fn,
    d := o.d, a := o.a, b := o.b, ca := o.ca, cb := o.cb, g := o.gd.g, gn := o.gd.gn, ty := o.ty.code,
    m := Fin.ofNat 256 (o.rm.val + 8 * o.sub.val) }

/-- Form `FVSgn` read from its fields; what it does not use must be zero (R297). -/
def FVSgn.dec (mk : FVSgn → Instr) (r : Raw) : Parsed :=
  { i := mk { d := r.d, a := r.a, b := r.b, ca := r.ca, cb := r.cb, gd := r.guard, ty := tyOr r.ty, rm := r.rm, sub := Fin.ofNat 4 (r.m.val / 8) },
    b2 := r.c != 0 || r.cc || r.x != 0 || 32 ≤ r.m.val,
    b8 := tyBad r.ty }

/-- The fields that form `FVVX` fills. -/
def FVVX.enc (fn : Fin 256) (o : FVVX) : Raw :=
  { fn := fn,
    d := o.d, a := o.a, b := o.b, ca := o.ca, g := o.gd.g, gn := o.gd.gn, ty := o.ty.code,
    m := Fin.ofNat 256 o.rm.val }

/-- Form `FVVX` read from its fields; what it does not use must be zero (R297). -/
def FVVX.dec (mk : FVVX → Instr) (r : Raw) : Parsed :=
  { i := mk { d := r.d, a := r.a, b := r.b, ca := r.ca, gd := r.guard, ty := tyOr r.ty, rm := r.rm },
    b2 := r.c != 0 || r.cb || r.cc || r.x != 0 || 8 ≤ r.m.val,
    b8 := tyBad r.ty }

/-- The fields that form `FVVXV` fills. -/
def FVVXV.enc (fn : Fin 256) (o : FVVXV) : Raw :=
  { fn := fn,
    d := o.d, a := o.a, b := o.b, c := o.c, ca := o.ca, cc := o.cc, g := o.gd.g, gn := o.gd.gn,
    ty := o.ty.code, m := Fin.ofNat 256 o.rm.val }

/-- Form `FVVXV` read from its fields; what it does not use must be zero (R297). -/
def FVVXV.dec (mk : FVVXV → Instr) (r : Raw) : Parsed :=
  { i := mk { d := r.d, a := r.a, b := r.b, c := r.c, ca := r.ca, cc := r.cc, gd := r.guard, ty := tyOr r.ty, rm := r.rm },
    b2 := r.cb || r.x != 0 || 8 ≤ r.m.val,
    b8 := tyBad r.ty }

/-- The fields that form `FVSgnX` fills. -/
def FVSgnX.enc (fn : Fin 256) (o : FVSgnX) : Raw :=
  { fn := fn,
    d := o.d, a := o.a, b := o.b, ca := o.ca, g := o.gd.g, gn := o.gd.gn, ty := o.ty.code,
    m := Fin.ofNat 256 (o.rm.val + 8 * o.sub.val) }

/-- Form `FVSgnX` read from its fields; what it does not use must be zero (R297). -/
def FVSgnX.dec (mk : FVSgnX → Instr) (r : Raw) : Parsed :=
  { i := mk { d := r.d, a := r.a, b := r.b, ca := r.ca, gd := r.guard, ty := tyOr r.ty, rm := r.rm, sub := Fin.ofNat 4 (r.m.val / 8) },
    b2 := r.c != 0 || r.cb || r.cc || r.x != 0 || 32 ≤ r.m.val,
    b8 := tyBad r.ty }

/-- The fields that form `VCmp` fills. -/
def VCmp.enc (fn : Fin 256) (o : VCmp) : Raw :=
  { fn := fn,
    d := o.d, a := o.a, b := o.b, ca := o.ca, cb := o.cb, g := o.gd.g, gn := o.gd.gn, ty := o.ty.code,
    m := Fin.ofNat 256 o.xb.toNat }

/-- Form `VCmp` read from its fields; what it does not use must be zero (R297). -/
def VCmp.dec (mk : VCmp → Instr) (r : Raw) : Parsed :=
  { i := mk { d := r.d, a := r.a, b := r.b, ca := r.ca, cb := r.cb, gd := r.guard, ty := tyOr r.ty, xb := r.mb 0 },
    b2 := r.c != 0 || r.cc || r.x != 0 || 2 ≤ r.m.val,
    b8 := tyBad r.ty }

/-- The fields that form `PPP` fills. -/
def PPP.enc (fn : Fin 256) (o : PPP) : Raw :=
  { fn := fn,
    d := o.d, a := o.a, b := o.b, g := o.gd.g, gn := o.gd.gn }

/-- Form `PPP` read from its fields; what it does not use must be zero (R297). -/
def PPP.dec (mk : PPP → Instr) (r : Raw) : Parsed :=
  { i := mk { d := r.d, a := r.a, b := r.b, gd := r.guard },
    b2 := r.c != 0 || r.ca || r.cb || r.cc || r.x != 0 || r.m != 0,
    b8 := r.ty != 0 }

/-- The fields that form `PP` fills. -/
def PP.enc (fn : Fin 256) (o : PP) : Raw :=
  { fn := fn,
    d := o.d, a := o.a, g := o.gd.g, gn := o.gd.gn }

/-- Form `PP` read from its fields; what it does not use must be zero (R297). -/
def PP.dec (mk : PP → Instr) (r : Raw) : Parsed :=
  { i := mk { d := r.d, a := r.a, gd := r.guard },
    b2 := r.b != 0 || r.c != 0 || r.ca || r.cb || r.cc || r.x != 0 || r.m != 0,
    b8 := r.ty != 0 }

/-- The fields that form `VRed` fills. -/
def VRed.enc (fn : Fin 256) (o : VRed) : Raw :=
  { fn := fn,
    d := o.d, a := o.a, b := o.b, ca := o.ca, g := o.gd.g, gn := o.gd.gn, ty := o.ty.code,
    m := Fin.ofNat 256 o.rm.val }

/-- Form `VRed` read from its fields; what it does not use must be zero (R297). -/
def VRed.dec (mk : VRed → Instr) (r : Raw) : Parsed :=
  { i := mk { d := r.d, a := r.a, b := r.b, ca := r.ca, gd := r.guard, ty := tyOr r.ty, rm := r.rm },
    b2 := r.c != 0 || r.cb || r.cc || r.x != 0 || 8 ≤ r.m.val,
    b8 := tyBad r.ty }

/-- The fields that form `VRedS` fills. -/
def VRedS.enc (fn : Fin 256) (o : VRedS) : Raw :=
  { fn := fn,
    d := o.d, a := o.a, b := o.b, c := o.c, ca := o.ca, g := o.gd.g, gn := o.gd.gn, ty := o.ty.code,
    m := Fin.ofNat 256 (o.rm.val + 8 * o.grp.val) }

/-- Form `VRedS` read from its fields; what it does not use must be zero (R297). -/
def VRedS.dec (mk : VRedS → Instr) (r : Raw) : Parsed :=
  { i := mk { d := r.d, a := r.a, b := r.b, c := r.c, ca := r.ca, gd := r.guard, ty := tyOr r.ty, rm := r.rm, grp := Fin.ofNat 8 (r.m.val / 8) },
    b2 := r.cb || r.cc || r.x != 0 || 64 ≤ r.m.val,
    b8 := tyBad r.ty }

/-- The fields that form `VCvt` fills. -/
def VCvt.enc (fn : Fin 256) (o : VCvt) : Raw :=
  { fn := fn,
    d := o.d, a := o.a, b := o.b, c := o.src.code, ca := o.ca, g := o.gd.g, gn := o.gd.gn, ty := o.ty.code,
    m := Fin.ofNat 256 (o.rm.val + 8 * o.sat.toNat) }

/-- Form `VCvt` read from its fields; what it does not use must be zero (R297). -/
def VCvt.dec (mk : VCvt → Instr) (r : Raw) : Parsed :=
  { i := mk { d := r.d, a := r.a, b := r.b, src := tyOr r.c, ca := r.ca, gd := r.guard, ty := tyOr r.ty, rm := r.rm, sat := r.mb 3 },
    b2 := r.cb || r.cc || r.x != 0 || 16 ≤ r.m.val,
    b8 := tyBad r.c || tyBad r.ty }

/-- The fields that form `VCvt2` fills. -/
def VCvt2.enc (fn : Fin 256) (o : VCvt2) : Raw :=
  { fn := fn,
    d := o.d, a := o.a, c := o.src.code, ca := o.ca, g := o.gd.g, gn := o.gd.gn, ty := o.ty.code,
    m := Fin.ofNat 256 o.rm.val }

/-- Form `VCvt2` read from its fields; what it does not use must be zero (R297). -/
def VCvt2.dec (mk : VCvt2 → Instr) (r : Raw) : Parsed :=
  { i := mk { d := r.d, a := r.a, src := tyOr r.c, ca := r.ca, gd := r.guard, ty := tyOr r.ty, rm := r.rm },
    b2 := r.b != 0 || r.cb || r.cc || r.x != 0 || 8 ≤ r.m.val,
    b8 := tyBad r.c || tyBad r.ty }

/-- The fields that form `VQnt` fills. -/
def VQnt.enc (fn : Fin 256) (o : VQnt) : Raw :=
  { fn := fn,
    d := o.d, a := o.a, b := o.b, c := o.src.code, ca := o.ca, g := o.gd.g, gn := o.gd.gn, ty := o.ty.code,
    m := Fin.ofNat 256 o.rm.val }

/-- Form `VQnt` read from its fields; what it does not use must be zero (R297). -/
def VQnt.dec (mk : VQnt → Instr) (r : Raw) : Parsed :=
  { i := mk { d := r.d, a := r.a, b := r.b, src := tyOr r.c, ca := r.ca, gd := r.guard, ty := tyOr r.ty, rm := r.rm },
    b2 := r.cb || r.cc || r.x != 0 || 8 ≤ r.m.val,
    b8 := tyBad r.c || tyBad r.ty }

/-- The fields that form `VLdF` fills. -/
def VLdF.enc (fn : Fin 256) (o : VLdF) : Raw :=
  { fn := fn,
    d := o.d, a := o.a, g := o.gd.g, gn := o.gd.gn, ty := o.ty.code, x := o.imm.setWidth 64,
    m := mOf o.sc o.fr false false false }

/-- Form `VLdF` read from its fields; what it does not use must be zero (R297). -/
def VLdF.dec (mk : VLdF → Instr) (r : Raw) : Parsed :=
  { i := mk { d := r.d, a := r.a, gd := r.guard, ty := tyOr r.ty, imm := r.imm, sc := r.sc, fr := r.mb 4 },
    b2 := r.b != 0 || r.c != 0 || r.ca || r.cb || r.cc || r.mb 5 || r.mb 6 || r.mb 7,
    b8 := tyBad r.ty }

/-- The fields that form `VStF` fills. -/
def VStF.enc (fn : Fin 256) (o : VStF) : Raw :=
  { fn := fn,
    a := o.a, b := o.b, cb := o.cb, g := o.gd.g, gn := o.gd.gn, ty := o.ty.code, x := o.imm.setWidth 64,
    m := mOf o.sc false false false false }

/-- Form `VStF` read from its fields; what it does not use must be zero (R297). -/
def VStF.dec (mk : VStF → Instr) (r : Raw) : Parsed :=
  { i := mk { a := r.a, b := r.b, cb := r.cb, gd := r.guard, ty := tyOr r.ty, imm := r.imm, sc := r.sc },
    b2 := r.d != 0 || r.c != 0 || r.ca || r.cc || r.mb 4 || r.mb 5 || r.mb 6 || r.mb 7,
    b8 := tyBad r.ty }

/-- The fields that form `VLdsF` fills. -/
def VLdsF.enc (fn : Fin 256) (o : VLdsF) : Raw :=
  { fn := fn,
    d := o.d, a := o.a, b := o.b, g := o.gd.g, gn := o.gd.gn, ty := o.ty.code, x := o.imm.setWidth 64,
    m := mOf o.sc o.fr false false false }

/-- Form `VLdsF` read from its fields; what it does not use must be zero (R297). -/
def VLdsF.dec (mk : VLdsF → Instr) (r : Raw) : Parsed :=
  { i := mk { d := r.d, a := r.a, b := r.b, gd := r.guard, ty := tyOr r.ty, imm := r.imm, sc := r.sc, fr := r.mb 4 },
    b2 := r.c != 0 || r.ca || r.cb || r.cc || r.mb 5 || r.mb 6 || r.mb 7,
    b8 := tyBad r.ty }

/-- The fields that form `VStsF` fills. -/
def VStsF.enc (fn : Fin 256) (o : VStsF) : Raw :=
  { fn := fn,
    a := o.a, b := o.b, c := o.c, cb := o.cb, g := o.gd.g, gn := o.gd.gn, ty := o.ty.code,
    x := o.imm.setWidth 64, m := mOf o.sc false false false false }

/-- Form `VStsF` read from its fields; what it does not use must be zero (R297). -/
def VStsF.dec (mk : VStsF → Instr) (r : Raw) : Parsed :=
  { i := mk { a := r.a, b := r.b, c := r.c, cb := r.cb, gd := r.guard, ty := tyOr r.ty, imm := r.imm, sc := r.sc },
    b2 := r.d != 0 || r.ca || r.cc || r.mb 4 || r.mb 5 || r.mb 6 || r.mb 7,
    b8 := tyBad r.ty }

/-- The fields that form `VGathF` fills. -/
def VGathF.enc (fn : Fin 256) (o : VGathF) : Raw :=
  { fn := fn,
    d := o.d, a := o.a, b := o.b, cb := o.cb, g := o.gd.g, gn := o.gd.gn, ty := o.ty.code,
    m := mOf o.sc o.fr false false false }

/-- Form `VGathF` read from its fields; what it does not use must be zero (R297). -/
def VGathF.dec (mk : VGathF → Instr) (r : Raw) : Parsed :=
  { i := mk { d := r.d, a := r.a, b := r.b, cb := r.cb, gd := r.guard, ty := tyOr r.ty, sc := r.sc, fr := r.mb 4 },
    b2 := r.c != 0 || r.ca || r.cc || r.x != 0 || r.mb 5 || r.mb 6 || r.mb 7,
    b8 := tyBad r.ty }

/-- The fields that form `VScatF` fills. -/
def VScatF.enc (fn : Fin 256) (o : VScatF) : Raw :=
  { fn := fn,
    a := o.a, b := o.b, c := o.c, cb := o.cb, cc := o.cc, g := o.gd.g, gn := o.gd.gn, ty := o.ty.code,
    m := mOf o.sc false false false false }

/-- Form `VScatF` read from its fields; what it does not use must be zero (R297). -/
def VScatF.dec (mk : VScatF → Instr) (r : Raw) : Parsed :=
  { i := mk { a := r.a, b := r.b, c := r.c, cb := r.cb, cc := r.cc, gd := r.guard, ty := tyOr r.ty, sc := r.sc },
    b2 := r.d != 0 || r.ca || r.x != 0 || r.mb 4 || r.mb 5 || r.mb 6 || r.mb 7,
    b8 := tyBad r.ty }

/-- The fields that form `MAttF` fills. -/
def MAttF.enc (fn : Fin 256) (o : MAttF) : Raw :=
  { fn := fn,
    d := o.d, a := o.a, g := o.gd.g, gn := o.gd.gn, m := Fin.ofNat 256 o.rm.val }

/-- Form `MAttF` read from its fields; what it does not use must be zero (R297). -/
def MAttF.dec (mk : MAttF → Instr) (r : Raw) : Parsed :=
  { i := mk { d := r.d, a := r.a, gd := r.guard, rm := r.rm },
    b2 := r.b != 0 || r.c != 0 || r.ca || r.cb || r.cc || r.x != 0 || 8 ≤ r.m.val,
    b8 := r.ty != 0 }

/-- The fields that form `MDetF` fills. -/
def MDetF.enc (fn : Fin 256) (o : MDetF) : Raw :=
  { fn := fn,
    g := o.gd.g, gn := o.gd.gn, m := Fin.ofNat 256 o.rm.val }

/-- Form `MDetF` read from its fields; what it does not use must be zero (R297). -/
def MDetF.dec (mk : MDetF → Instr) (r : Raw) : Parsed :=
  { i := mk { gd := r.guard, rm := r.rm },
    b2 := r.d != 0 || r.a != 0 || r.b != 0 || r.c != 0 || r.ca || r.cb || r.cc || r.x != 0 || 8 ≤ r.m.val,
    b8 := r.ty != 0 }

/-- The fields that form `MZeroF` fills. -/
def MZeroF.enc (fn : Fin 256) (o : MZeroF) : Raw :=
  { fn := fn,
    d := o.d, g := o.gd.g, gn := o.gd.gn, m := Fin.ofNat 256 o.rm.val }

/-- Form `MZeroF` read from its fields; what it does not use must be zero (R297). -/
def MZeroF.dec (mk : MZeroF → Instr) (r : Raw) : Parsed :=
  { i := mk { d := r.d, gd := r.guard, rm := r.rm },
    b2 := r.a != 0 || r.b != 0 || r.c != 0 || r.ca || r.cb || r.cc || r.x != 0 || 8 ≤ r.m.val,
    b8 := r.ty != 0 }

/-- The fields that form `MmaF` fills. -/
def MmaF.enc (fn : Fin 256) (o : MmaF) : Raw :=
  { fn := fn,
    d := o.d, a := o.a, b := o.b, ca := o.ca, cb := o.cb, g := o.gd.g, gn := o.gd.gn, ty := o.ty.code,
    m := Fin.ofNat 256 (o.rm.val + 8 * o.w.toNat) }

/-- Form `MmaF` read from its fields; what it does not use must be zero (R297). -/
def MmaF.dec (mk : MmaF → Instr) (r : Raw) : Parsed :=
  { i := mk { d := r.d, a := r.a, b := r.b, ca := r.ca, cb := r.cb, gd := r.guard, ty := tyOr r.ty, rm := r.rm, w := r.mb 3 },
    b2 := r.c != 0 || r.cc || r.x != 0 || 16 ≤ r.m.val,
    b8 := tyBad r.ty }

/-- The fields that form `MmamF` fills. -/
def MmamF.enc (fn : Fin 256) (o : MmamF) : Raw :=
  { fn := fn,
    d := o.d, a := o.a, b := o.b, c := o.c, ca := o.ca, g := o.gd.g, gn := o.gd.gn, ty := o.ty.code,
    m := Fin.ofNat 256 (o.rm.val + 8 * o.w.toNat) }

/-- Form `MmamF` read from its fields; what it does not use must be zero (R297). -/
def MmamF.dec (mk : MmamF → Instr) (r : Raw) : Parsed :=
  { i := mk { d := r.d, a := r.a, b := r.b, c := r.c, ca := r.ca, gd := r.guard, ty := tyOr r.ty, rm := r.rm, w := r.mb 3 },
    b2 := r.cb || r.cc || r.x != 0 || 16 ≤ r.m.val,
    b8 := tyBad r.ty }

/-- The fields that form `MRowF` fills. -/
def MRowF.enc (fn : Fin 256) (o : MRowF) : Raw :=
  { fn := fn,
    d := o.d, a := o.a, b := o.b, g := o.gd.g, gn := o.gd.gn, ty := o.ty.code, m := Fin.ofNat 256 o.rm.val }

/-- Form `MRowF` read from its fields; what it does not use must be zero (R297). -/
def MRowF.dec (mk : MRowF → Instr) (r : Raw) : Parsed :=
  { i := mk { d := r.d, a := r.a, b := r.b, gd := r.guard, ty := tyOr r.ty, rm := r.rm },
    b2 := r.c != 0 || r.ca || r.cb || r.cc || r.x != 0 || 8 ≤ r.m.val,
    b8 := tyBad r.ty }

/-- The fields that form `MSttF` fills. -/
def MSttF.enc (fn : Fin 256) (o : MSttF) : Raw :=
  { fn := fn,
    a := o.a, b := o.b, c := o.c, g := o.gd.g, gn := o.gd.gn, ty := o.ty.code, m := Fin.ofNat 256 o.rm.val }

/-- Form `MSttF` read from its fields; what it does not use must be zero (R297). -/
def MSttF.dec (mk : MSttF → Instr) (r : Raw) : Parsed :=
  { i := mk { a := r.a, b := r.b, c := r.c, gd := r.guard, ty := tyOr r.ty, rm := r.rm },
    b2 := r.d != 0 || r.ca || r.cb || r.cc || r.x != 0 || 8 ≤ r.m.val,
    b8 := tyBad r.ty }

/-- The fields that form `MMovWrF` fills. -/
def MMovWrF.enc (fn : Fin 256) (o : MMovWrF) : Raw :=
  { fn := fn,
    d := o.d, a := o.a, b := o.b, ca := o.ca, g := o.gd.g, gn := o.gd.gn, ty := o.ty.code,
    m := Fin.ofNat 256 (o.rm.val + 8) }

/-- Form `MMovWrF` read from its fields; what it does not use must be zero (R297). -/
def MMovWrF.dec (mk : MMovWrF → Instr) (r : Raw) : Parsed :=
  { i := mk { d := r.d, a := r.a, b := r.b, ca := r.ca, gd := r.guard, ty := tyOr r.ty, rm := r.rm },
    b2 := r.c != 0 || r.cb || r.cc || r.x != 0 || 16 ≤ r.m.val,
    b8 := tyBad r.ty }

/-- The fields that form `ForkF` fills. -/
def ForkF.enc (fn : Fin 256) (o : ForkF) : Raw :=
  { fn := fn,
    a := o.a, x := o.imm.setWidth 64 }

/-- Form `ForkF` read from its fields; what it does not use must be zero (R297). -/
def ForkF.dec (mk : ForkF → Instr) (r : Raw) : Parsed :=
  { i := mk { a := r.a, imm := r.imm },
    b2 := r.d != 0 || r.b != 0 || r.c != 0 || r.ca || r.cb || r.cc || r.g != 0 || r.gn || r.m != 0,
    b8 := r.ty != 0 }

/-- The fields that form `RegImm` fills. -/
def RegImm.enc (fn : Fin 256) (o : RegImm) : Raw :=
  { fn := fn,
    d := o.d, x := o.imm.setWidth 64 }

/-- Form `RegImm` read from its fields; what it does not use must be zero (R297). -/
def RegImm.dec (mk : RegImm → Instr) (r : Raw) : Parsed :=
  { i := mk { d := r.d, imm := r.imm },
    b2 := r.a != 0 || r.b != 0 || r.c != 0 || r.ca || r.cb || r.cc || r.g != 0 || r.gn || r.m != 0,
    b8 := r.ty != 0 }

/-- The fields that form `KeepF` fills. -/
def KeepF.enc (fn : Fin 256) (o : KeepF) : Raw :=
  { fn := fn,
    a := o.a, b := o.b }

/-- Form `KeepF` read from its fields; what it does not use must be zero (R297). -/
def KeepF.dec (mk : KeepF → Instr) (r : Raw) : Parsed :=
  { i := mk { a := r.a, b := r.b },
    b2 := r.d != 0 || r.c != 0 || r.ca || r.cb || r.cc || r.g != 0 || r.gn || r.x != 0 || r.m != 0,
    b8 := r.ty != 0 }

/-- The fields that form `SendF` fills. -/
def SendF.enc (fn : Fin 256) (o : SendF) : Raw :=
  { fn := fn,
    d := o.d, a := o.a, b := o.b, c := o.c, g := o.gd.g, gn := o.gd.gn, m := mOf o.sc false false false o.sand }

/-- Form `SendF` read from its fields; what it does not use must be zero (R297). -/
def SendF.dec (mk : SendF → Instr) (r : Raw) : Parsed :=
  { i := mk { d := r.d, a := r.a, b := r.b, c := r.c, gd := r.guard, sand := r.mb 7, sc := r.sc },
    b2 := r.ca || r.cb || r.cc || r.x != 0 || r.mb 4 || r.mb 5 || r.mb 6,
    b8 := r.ty != 0 }

/-- The fields that form `MBufF` fills. -/
def MBufF.enc (fn : Fin 256) (o : MBufF) : Raw :=
  { fn := fn,
    d := o.d, a := o.a, g := o.gd.g, gn := o.gd.gn, m := mOf o.sc false false false false }

/-- Form `MBufF` read from its fields; what it does not use must be zero (R297). -/
def MBufF.dec (mk : MBufF → Instr) (r : Raw) : Parsed :=
  { i := mk { d := r.d, a := r.a, gd := r.guard, sc := r.sc },
    b2 := r.b != 0 || r.c != 0 || r.ca || r.cb || r.cc || r.x != 0 || r.mb 4 || r.mb 5 || r.mb 6 || r.mb 7,
    b8 := r.ty != 0 }

/-- The fields that form `RatomF` fills. -/
def RatomF.enc (fn : Fin 256) (o : RatomF) : Raw :=
  { fn := fn,
    d := o.d, a := o.a, b := o.b, c := o.c, g := o.gd.g, gn := o.gd.gn, ty := o.ty.code,
    m := mOf o.sc false o.acq o.rel false }

/-- Form `RatomF` read from its fields; what it does not use must be zero (R297). -/
def RatomF.dec (mk : RatomF → Instr) (r : Raw) : Parsed :=
  { i := mk { d := r.d, a := r.a, b := r.b, c := r.c, gd := r.guard, ty := tyOr r.ty, sc := r.sc, acq := r.mb 5, rel := r.mb 6 },
    b2 := r.ca || r.cb || r.cc || r.x != 0 || r.mb 4 || r.mb 7,
    b8 := tyBad r.ty }

/-- The fields that form `CpyF` fills. -/
def CpyF.enc (fn : Fin 256) (o : CpyF) : Raw :=
  { fn := fn,
    d := o.d, a := o.a, b := o.b, c := o.c, g := o.gd.g, gn := o.gd.gn, m := mOf o.sc false false false o.sand }

/-- Form `CpyF` read from its fields; what it does not use must be zero (R297). -/
def CpyF.dec (mk : CpyF → Instr) (r : Raw) : Parsed :=
  { i := mk { d := r.d, a := r.a, b := r.b, c := r.c, gd := r.guard, sc := r.sc, sand := r.mb 7 },
    b2 := r.ca || r.cb || r.cc || r.x != 0 || r.mb 4 || r.mb 5 || r.mb 6,
    b8 := r.ty != 0 }

/-- The fields that form `CpyvF` fills. -/
def CpyvF.enc (fn : Fin 256) (o : CpyvF) : Raw :=
  { fn := fn,
    d := o.d, a := o.a, b := o.b, c := o.c, cb := o.cb, g := o.gd.g, gn := o.gd.gn, ty := o.ty,
    m := mOf o.sc false false false o.sand }

/-- Form `CpyvF` read from its fields; what it does not use must be zero (R297). -/
def CpyvF.dec (mk : CpyvF → Instr) (r : Raw) : Parsed :=
  { i := mk { d := r.d, a := r.a, b := r.b, c := r.c, cb := r.cb, gd := r.guard, sc := r.sc, sand := r.mb 7, ty := r.ty },
    b2 := r.ca || r.cc || r.x != 0 || r.mb 4 || r.mb 5 || r.mb 6 }

/-- The fields that form `DrainF` fills. -/
def DrainF.enc (fn : Fin 256) (o : DrainF) : Raw :=
  { fn := fn,
    a := o.a, g := o.gd.g, gn := o.gd.gn, m := mOf o.sc false false false false }

/-- Form `DrainF` read from its fields; what it does not use must be zero (R297). -/
def DrainF.dec (mk : DrainF → Instr) (r : Raw) : Parsed :=
  { i := mk { a := r.a, gd := r.guard, sc := r.sc },
    b2 := r.d != 0 || r.b != 0 || r.c != 0 || r.ca || r.cb || r.cc || r.x != 0 || r.mb 4 || r.mb 5 ||
      r.mb 6 || r.mb 7,
    b8 := r.ty != 0 }

/-- The fields that form `TriF` fills. -/
def TriF.enc (fn : Fin 256) (o : TriF) : Raw :=
  { fn := fn,
    d := o.d, a := o.a, b := o.b, g := o.gd.g, gn := o.gd.gn, m := mOf o.sc false false false false }

/-- Form `TriF` read from its fields; what it does not use must be zero (R297). -/
def TriF.dec (mk : TriF → Instr) (r : Raw) : Parsed :=
  { i := mk { d := r.d, a := r.a, b := r.b, gd := r.guard, sc := r.sc },
    b2 := r.c != 0 || r.ca || r.cb || r.cc || r.x != 0 || r.mb 4 || r.mb 5 || r.mb 6 || r.mb 7,
    b8 := r.ty != 0 }

/-- The fields that form `DuoF` fills. -/
def DuoF.enc (fn : Fin 256) (o : DuoF) : Raw :=
  { fn := fn,
    d := o.d, a := o.a, g := o.gd.g, gn := o.gd.gn, m := mOf o.sc false false false false }

/-- Form `DuoF` read from its fields; what it does not use must be zero (R297). -/
def DuoF.dec (mk : DuoF → Instr) (r : Raw) : Parsed :=
  { i := mk { d := r.d, a := r.a, gd := r.guard, sc := r.sc },
    b2 := r.b != 0 || r.c != 0 || r.ca || r.cb || r.cc || r.x != 0 || r.mb 4 || r.mb 5 || r.mb 6 || r.mb 7,
    b8 := r.ty != 0 }

/-- The fields that form `QPushF` fills. -/
def QPushF.enc (fn : Fin 256) (o : QPushF) : Raw :=
  { fn := fn,
    a := o.a, b := o.b, g := o.gd.g, gn := o.gd.gn, m := mOf o.sc false false false false }

/-- Form `QPushF` read from its fields; what it does not use must be zero (R297). -/
def QPushF.dec (mk : QPushF → Instr) (r : Raw) : Parsed :=
  { i := mk { a := r.a, b := r.b, gd := r.guard, sc := r.sc },
    b2 := r.d != 0 || r.c != 0 || r.ca || r.cb || r.cc || r.x != 0 || r.mb 4 || r.mb 5 || r.mb 6 || r.mb 7,
    b8 := r.ty != 0 }

/-- The fields that form `ExitF` fills. -/
def ExitF.enc (fn : Fin 256) (o : ExitF) : Raw :=
  { fn := fn,
    g := o.gd.g, gn := o.gd.gn, m := mOf o.sc false false false false }

/-- Form `ExitF` read from its fields; what it does not use must be zero (R297). -/
def ExitF.dec (mk : ExitF → Instr) (r : Raw) : Parsed :=
  { i := mk { gd := r.guard, sc := r.sc },
    b2 := r.d != 0 || r.a != 0 || r.b != 0 || r.c != 0 || r.ca || r.cb || r.cc || r.x != 0 || r.mb 4 ||
      r.mb 5 || r.mb 6 || r.mb 7,
    b8 := r.ty != 0 }

/-- A row without operands. -/
def Raw.none (i : Instr) (r : Raw) : Parsed :=
  { i := i,
    b2 := r.d != 0 || r.a != 0 || r.b != 0 || r.c != 0 || r.ca || r.cb || r.cc || r.g != 0 || r.gn || r.m != 0,
    b8 := r.ty != 0 }

/-- Bits [127:64] of the block forms (R406). -/
def Scales.x (s : Scales) : BitVec 64 :=
  BitVec.ofNat 64 (s.sa.val + 64 * s.sb.val + 4096 * s.xba.val + 262144 * s.xbb.val)

/-- The scale fields of the block forms. -/
def Raw.scales (r : Raw) : Scales :=
  { sa := Fin.ofNat 64 r.x.toNat, sb := Fin.ofNat 64 (r.x.toNat / 64), xba := Fin.ofNat 64 (r.x.toNat / 4096),
    xbb := Fin.ofNat 64 (r.x.toNat / 262144) }

/-- Scale bits that R406 leaves zero. -/
def Raw.scalesBad (r : Raw) : Bool := 16777216 ≤ r.x.toNat

/-- The block form of `mma`. -/
def MmaBF.enc (fn : Fin 256) (o : MmaBF) : Raw := { o.f.enc fn with x := o.s.x }

/-- The block form of `mma`, read. -/
def MmaBF.dec (mk : MmaBF → Instr) (r : Raw) : Parsed :=
  let p := MmaF.dec (fun f => mk { f := f, s := r.scales }) { r with x := 0 }
  { p with b2 := p.b2 || r.scalesBad }

/-- The block form of `mmam`. -/
def MmamBF.enc (fn : Fin 256) (o : MmamBF) : Raw := { o.f.enc fn with x := o.s.x }

/-- The block form of `mmam`, read. -/
def MmamBF.dec (mk : MmamBF → Instr) (r : Raw) : Parsed :=
  let p := MmamF.dec (fun f => mk { f := f, s := r.scales }) { r with x := 0 }
  { p with b2 := p.b2 || r.scalesBad }

/-- `mmov`, whose m[3] chooses the form (R409). -/
def decMmov (r : Raw) : Parsed :=
  if r.mb 3 then MMovWrF.dec .mmovWr r else MRowF.dec .mmov r

/-- The guard of a scalar-immediate word. -/
def RawSI.guard (r : RawSI) : Guard := { g := r.g, gn := r.gn }

/-- Form `XXI`. -/
def XXI.enc (fn5 : Fin 32) (o : XXI) : RawSI :=
  { d := o.d, a := o.a, g := o.gd.g, gn := o.gd.gn, fn5 := fn5, imm := o.imm }

/-- Form `XXI`, read. -/
def XXI.dec (mk : XXI → Instr) (r : RawSI) : Parsed :=
  { i := mk { d := r.d, a := r.a, imm := r.imm, gd := r.guard } }

/-- Form `XI`. -/
def XI.enc (fn5 : Fin 32) (o : XI) : RawSI :=
  { d := o.d, g := o.gd.g, gn := o.gd.gn, fn5 := fn5, imm := o.imm }

/-- Form `XI`, read; field a is zero. -/
def XI.dec (mk : XI → Instr) (r : RawSI) : Parsed :=
  { i := mk { d := r.d, imm := r.imm, gd := r.guard }, b2 := r.a != 0 }

/-- `sysr` (R358). -/
def SysrF.enc (o : SysrF) : RawSI :=
  { d := o.d, g := o.gd.g, gn := o.gd.gn, fn5 := 0, imm := BitVec.ofNat 32 o.idx.val }

/-- `sysr`, read: imm32[31:12] and field a are zero. -/
def SysrF.dec (r : RawSI) : Parsed :=
  { i := .sysr { d := r.d, idx := Fin.ofNat 4096 r.imm.toNat, gd := r.guard }, b2 := r.a != 0 || 4096 ≤ r.imm.toNat }

/-- `sysw xa, idx` (R358). -/
def encSysw (a : Reg) (idx : Nat) (gd : Guard) : RawSI :=
  { a := a, g := gd.g, gn := gd.gn, fn5 := 1, imm := BitVec.ofNat 32 idx }

/-- The term of `sysw xa, idx`: an index with a row of its own in the opcode table is that row's. -/
def syswTerm (a : Reg) (idx : Fin 4096) (gd : Guard) : Instr :=
  match idx.val with
  | 0x000 => .syswVl { a := a, gd := gd }
  | 0x002 => .syswVtype { a := a, gd := gd }
  | 0x006 => .syswSrseed { a := a, gd := gd }
  | 0x011 => .syswTshape { a := a, gd := gd }
  | 0x019 => .syswSpecst { a := a, gd := gd }
  | 0x01C => .syswSmev { a := a, gd := gd }
  | 0x020 => .syswRb { a := a, n := 0, gd := gd }
  | 0x021 => .syswRb { a := a, n := 1, gd := gd }
  | 0x022 => .syswRb { a := a, n := 2, gd := gd }
  | 0x023 => .syswRb { a := a, n := 3, gd := gd }
  | 0x040 => .syswTstk { a := a, gd := gd }
  | _ => .sysw { a := a, idx := idx, gd := gd }

/-- `sysw`, read. -/
def decSysw (r : RawSI) : Parsed :=
  { i := syswTerm r.a (Fin.ofNat 4096 r.imm.toNat) r.guard, b2 := r.d != 0 || 4096 ≤ r.imm.toNat }

/-- A comparing branch, cnd 1 to 6 (R304). -/
def BrCmp.dec (mk : BrCmp → Instr) (r : RawBR) : Parsed :=
  { i := mk { a := r.a, b := r.b, off := r.off }, b2 := r.d != 0 }

/-- `bpt` and `bpf`: field b is zero (R304). -/
def BrReg.dec (mk : BrReg → Instr) (r : RawBR) : Parsed :=
  { i := mk { r := r.a, off := r.off }, b2 := r.d != 0 || r.b != 0 }

/-- Opcode 0x31 (R304); none for a reserved cnd. -/
def decBranch (r : RawBR) : Option Parsed :=
  match r.cnd.val with
  | 0 => some { i := .b { off := r.off }, b2 := r.d != 0 || r.a != 0 || r.b != 0 }
  | 1 => some (BrCmp.dec .beq r)
  | 2 => some (BrCmp.dec .bne r)
  | 3 => some (BrCmp.dec .blt r)
  | 4 => some (BrCmp.dec .bge r)
  | 5 => some (BrCmp.dec .bltu r)
  | 6 => some (BrCmp.dec .bgeu r)
  | 7 => some (BrReg.dec .bpt r)
  | 8 => some (BrReg.dec .bpf r)
  | _ => none

/-- Opcode 0x32 (R340). -/
def decCall (r : RawBR) : Option Parsed :=
  if r.cnd == 0 then some { i := .call { r := r.d, off := r.off }, b2 := r.a != 0 || r.b != 0 } else none

/-- Opcode 0x10 (R329). -/
def decSI10 (r : RawSI) : Option Parsed :=
  match r.fn5.val with
  | 0 => some (XXI.dec .addi r)
  | 1 => some (XXI.dec .andi r)
  | 2 => some (XXI.dec .ori r)
  | 3 => some (XXI.dec .xori r)
  | 4 => some (XXI.dec .slli r)
  | 5 => some (XXI.dec .srli r)
  | 6 => some (XXI.dec .srai r)
  | 7 => some (XXI.dec .slti r)
  | 8 => some (XXI.dec .sltui r)
  | 9 => some (XI.dec .li r)
  | 10 => some (XXI.dec .lih r)
  | _ => none

/-- Opcode 0x12 (R331). -/
def decSI12 (r : RawSI) : Option Parsed := if r.fn5 == 0 then some (XI.dec .lpc r) else none

/-- Opcode 0x58 (R358). -/
def decSI58 (r : RawSI) : Option Parsed :=
  match r.fn5.val with
  | 0 => some (SysrF.dec r)
  | 1 => some (decSysw r)
  | _ => none

/-- Opcode 0x00 (R303); none for an unlisted function code. -/
def dec00 (r : Raw) : Option Parsed :=
  match r.fn.val with
  | 0 => some (XXX.dec .add r)
  | 1 => some (XXX.dec .sub r)
  | 2 => some (XXX.dec .mul r)
  | 3 => some (XXX.dec .mulh r)
  | 4 => some (XXX.dec .div r)
  | 5 => some (XXX.dec .rem r)
  | 6 => some (XXX.dec .and r)
  | 7 => some (XXX.dec .or r)
  | 8 => some (XXX.dec .xor r)
  | 9 => some (XXX.dec .andn r)
  | 10 => some (XXX.dec .sll r)
  | 11 => some (XXX.dec .srl r)
  | 12 => some (XXX.dec .sra r)
  | 13 => some (XXX.dec .rol r)
  | 14 => some (XXX.dec .min r)
  | 15 => some (XXX.dec .max r)
  | 16 => some (XXX.dec .adds r)
  | 17 => some (XXX.dec .subs r)
  | 18 => some (XXX.dec .seq r)
  | 19 => some (XXX.dec .slt r)
  | 20 => some (XXX.dec .sle r)
  | 21 => some (XXXX.dec .sel r)
  | 22 => some (XX.dec .clz r)
  | 23 => some (XX.dec .ctz r)
  | 24 => some (XX.dec .popc r)
  | 25 => some (XXX.dec .ext r)
  | 26 => some (XX.dec .mov r)
  | _ => none

/-- Opcode 0x11 (R303); none for an unlisted function code. -/
def dec11 (r : Raw) : Option Parsed :=
  match r.fn.val with
  | 0 => some (XI64.dec .liImm64 r)
  | _ => none

/-- Opcode 0x20 (R303); none for an unlisted function code. -/
def dec20 (r : Raw) : Option Parsed :=
  match r.fn.val with
  | 0 => some (FXXX.dec .fadd r)
  | 1 => some (FXXX.dec .fsub r)
  | 2 => some (FXXX.dec .fmul r)
  | 3 => some (FXXX.dec .fdiv r)
  | 4 => some (FXX.dec .fsqrt r)
  | 5 => some (FXXXX.dec .fma r)
  | 6 => some (FXXX.dec .fmin r)
  | 7 => some (FXXX.dec .fmax r)
  | 8 => some (FSgn.dec .fsgn r)
  | 9 => some (FXXX.dec .feq r)
  | 10 => some (FXXX.dec .flt r)
  | 11 => some (FXXX.dec .fle r)
  | 12 => some (FXX.dec .fclass r)
  | 13 => some (FCvt.dec .fcvt r)
  | 14 => some (FCvt.dec .fcvti r)
  | 15 => some (FCvt.dec .ficvt r)
  | _ => none

/-- Opcode 0x30 (R303); none for an unlisted function code. -/
def dec30 (r : Raw) : Option Parsed :=
  match r.fn.val with
  | 0 => some (OnlyGuard.dec .nop r)
  | 1 => some (JumpReg.dec .jr r)
  | 2 => some (JumpLink.dec .jalr r)
  | 3 => some (JumpReg.dec .ret r)
  | _ => none

/-- Opcode 0x40 (R303); none for an unlisted function code. -/
def dec40 (r : Raw) : Option Parsed :=
  match r.fn.val with
  | 0 => some (LdF.dec .ld r)
  | 1 => some (LdpF.dec .ldp r)
  | _ => none

/-- Opcode 0x41 (R303); none for an unlisted function code. -/
def dec41 (r : Raw) : Option Parsed :=
  match r.fn.val with
  | 0 => some (StF.dec .st r)
  | 1 => some (StpF.dec .stp r)
  | _ => none

/-- Opcode 0x42 (R303); none for an unlisted function code. -/
def dec42 (r : Raw) : Option Parsed :=
  match r.fn.val with
  | 0 => some (FstF.dec .fst r)
  | _ => none

/-- Opcode 0x44 (R303); none for an unlisted function code. -/
def dec44 (r : Raw) : Option Parsed :=
  match r.fn.val with
  | 0 => some (AmoF.dec .amoadd r)
  | 1 => some (AmoF.dec .amoand r)
  | 2 => some (AmoF.dec .amoor r)
  | 3 => some (AmoF.dec .amoxor r)
  | 4 => some (AmoF.dec .amoswap r)
  | 5 => some (CasF.dec .amocas r)
  | 6 => some (AmoF.dec .amomin r)
  | 7 => some (AmoF.dec .amomax r)
  | 8 => some (AmoF.dec .amofadd r)
  | 9 => some (AmoF.dec .amofmax r)
  | _ => none

/-- Opcode 0x50 (R303); none for an unlisted function code. -/
def dec50 (r : Raw) : Option Parsed :=
  match r.fn.val with
  | 0 => some (ScopeF.dec .fenceAcq r)
  | 1 => some (ScopeF.dec .fenceRel r)
  | 2 => some (ScopeF.dec .fenceFull r)
  | 3 => some (ScopeF.dec .ssync r)
  | 4 => some (WidenF.dec .relWiden r)
  | _ => none

/-- Opcode 0x59 (R303); none for an unlisted function code. -/
def dec59 (r : Raw) : Option Parsed :=
  match r.fn.val with
  | 0 => some (r.none .tret)
  | 1 => some (r.none .uret)
  | _ => none

/-- Opcode 0x60 (R303); none for an unlisted function code. -/
def dec60 (r : Raw) : Option Parsed :=
  match r.fn.val with
  | 0 => some (SetF.dec .setvl r)
  | 1 => some (SetF.dec .setvt r)
  | 2 => some (SetF.dec .vloop r)
  | 3 => some (OnlyGuard.dec .vlend r)
  | _ => none

/-- Opcode 0x61 (R303); none for an unlisted function code. -/
def dec61 (r : Raw) : Option Parsed :=
  match r.fn.val with
  | 0 => some (VVV.dec .vadd r)
  | 1 => some (VVV.dec .vsub r)
  | 2 => some (VVV.dec .vmul r)
  | 3 => some (VVV.dec .vmulh r)
  | 4 => some (VVV.dec .vdiv r)
  | 5 => some (VVV.dec .vrem r)
  | 6 => some (VVV.dec .vand r)
  | 7 => some (VVV.dec .vor r)
  | 8 => some (VVV.dec .vxor r)
  | 9 => some (VVV.dec .vandn r)
  | 10 => some (VVV.dec .vsll r)
  | 11 => some (VVV.dec .vsrl r)
  | 12 => some (VVV.dec .vsra r)
  | 13 => some (VVV.dec .vmin r)
  | 14 => some (VVV.dec .vmax r)
  | 15 => some (VVV.dec .vadds r)
  | 16 => some (VVV.dec .vsubs r)
  | 17 => some (VV.dec .vabs r)
  | 18 => some (VV.dec .vneg r)
  | 19 => some (VV.dec .vmov r)
  | 20 => some (VVVP.dec .vsel r)
  | 21 => some (VVV.dec .vext r)
  | _ => none

/-- Opcode 0x62 (R303); none for an unlisted function code. -/
def dec62 (r : Raw) : Option Parsed :=
  match r.fn.val with
  | 0 => some (VVX.dec .vaddScalar r)
  | 1 => some (VVX.dec .vsubScalar r)
  | 2 => some (VVX.dec .vmulScalar r)
  | 3 => some (VVX.dec .vmulhScalar r)
  | 4 => some (VVX.dec .vdivScalar r)
  | 5 => some (VVX.dec .vremScalar r)
  | 6 => some (VVX.dec .vandScalar r)
  | 7 => some (VVX.dec .vorScalar r)
  | 8 => some (VVX.dec .vxorScalar r)
  | 9 => some (VVX.dec .vandnScalar r)
  | 10 => some (VVX.dec .vsllScalar r)
  | 11 => some (VVX.dec .vsrlScalar r)
  | 12 => some (VVX.dec .vsraScalar r)
  | 13 => some (VVX.dec .vminScalar r)
  | 14 => some (VVX.dec .vmaxScalar r)
  | 15 => some (VVX.dec .vaddsScalar r)
  | 16 => some (VVX.dec .vsubsScalar r)
  | 20 => some (VVXP.dec .vselScalar r)
  | 21 => some (VVX.dec .vextScalar r)
  | _ => none

/-- Opcode 0x63 (R303); none for an unlisted function code. -/
def dec63 (r : Raw) : Option Parsed :=
  match r.fn.val with
  | 0 => some (VVI.dec .vaddImm r)
  | 1 => some (VVI.dec .vsubImm r)
  | 2 => some (VVI.dec .vmulImm r)
  | 3 => some (VVI.dec .vmulhImm r)
  | 4 => some (VVI.dec .vdivImm r)
  | 5 => some (VVI.dec .vremImm r)
  | 6 => some (VVI.dec .vandImm r)
  | 7 => some (VVI.dec .vorImm r)
  | 8 => some (VVI.dec .vxorImm r)
  | 9 => some (VVI.dec .vandnImm r)
  | 10 => some (VVI.dec .vsllImm r)
  | 11 => some (VVI.dec .vsrlImm r)
  | 12 => some (VVI.dec .vsraImm r)
  | 13 => some (VVI.dec .vminImm r)
  | 14 => some (VVI.dec .vmaxImm r)
  | 15 => some (VVI.dec .vaddsImm r)
  | 16 => some (VVI.dec .vsubsImm r)
  | 20 => some (VVIP.dec .vselImm r)
  | 21 => some (VVI.dec .vextImm r)
  | _ => none

/-- Opcode 0x64 (R303); none for an unlisted function code. -/
def dec64 (r : Raw) : Option Parsed :=
  match r.fn.val with
  | 0 => some (FVVV.dec .vfadd r)
  | 1 => some (FVVV.dec .vfsub r)
  | 2 => some (FVVV.dec .vfmul r)
  | 3 => some (FVVV.dec .vfdiv r)
  | 4 => some (FVV.dec .vfsqrt r)
  | 5 => some (FVVVV.dec .vfma r)
  | 6 => some (FVVVV.dec .vfms r)
  | 7 => some (FVVVV.dec .vfnma r)
  | 8 => some (FVVV.dec .vfmin r)
  | 9 => some (FVVV.dec .vfmax r)
  | 10 => some (FVSgn.dec .vfsgn r)
  | 11 => some (FVV.dec .vfabs r)
  | 12 => some (FVV.dec .vfneg r)
  | _ => none

/-- Opcode 0x65 (R303); none for an unlisted function code. -/
def dec65 (r : Raw) : Option Parsed :=
  match r.fn.val with
  | 0 => some (FVVX.dec .vfaddScalar r)
  | 1 => some (FVVX.dec .vfsubScalar r)
  | 2 => some (FVVX.dec .vfmulScalar r)
  | 3 => some (FVVX.dec .vfdivScalar r)
  | 5 => some (FVVXV.dec .vfmaScalar r)
  | 6 => some (FVVXV.dec .vfmsScalar r)
  | 7 => some (FVVXV.dec .vfnmaScalar r)
  | 8 => some (FVVX.dec .vfminScalar r)
  | 9 => some (FVVX.dec .vfmaxScalar r)
  | 10 => some (FVSgnX.dec .vfsgnScalar r)
  | _ => none

/-- Opcode 0x68 (R303); none for an unlisted function code. -/
def dec68 (r : Raw) : Option Parsed :=
  match r.fn.val with
  | 0 => some (VCmp.dec .vcmpEq r)
  | 1 => some (VCmp.dec .vcmpNe r)
  | 2 => some (VCmp.dec .vcmpLt r)
  | 3 => some (VCmp.dec .vcmpLe r)
  | 4 => some (VCmp.dec .vcmpGt r)
  | 5 => some (VCmp.dec .vcmpGe r)
  | 6 => some (VCmp.dec .vcmpUn r)
  | 7 => some (VVX.dec .vfclass r)
  | _ => none

/-- Opcode 0x69 (R303); none for an unlisted function code. -/
def dec69 (r : Raw) : Option Parsed :=
  match r.fn.val with
  | 0 => some (PPP.dec .pand r)
  | 1 => some (PPP.dec .por r)
  | 2 => some (PPP.dec .pxor r)
  | 3 => some (PPP.dec .pandn r)
  | 4 => some (PP.dec .pnot r)
  | 5 => some (PP.dec .pmov r)
  | 6 => some (PP.dec .pfirst r)
  | 7 => some (PP.dec .pcount r)
  | 8 => some (PP.dec .pset r)
  | _ => none

/-- Opcode 0x6C (R303); none for an unlisted function code. -/
def dec6C (r : Raw) : Option Parsed :=
  match r.fn.val with
  | 0 => some (VVV.dec .vperm r)
  | 1 => some (XX.dec .vbcast r)
  | 2 => some (VVX.dec .vslideup r)
  | 3 => some (VVX.dec .vslidedn r)
  | 4 => some (VV.dec .vcompress r)
  | 5 => some (VV.dec .vexpand r)
  | 6 => some (VVX.dec .vextr r)
  | 7 => some (XXX.dec .vins r)
  | 8 => some (VV.dec .vrev r)
  | _ => none

/-- Opcode 0x70 (R303); none for an unlisted function code. -/
def dec70 (r : Raw) : Option Parsed :=
  match r.fn.val with
  | 0 => some (VRed.dec .vredoSum r)
  | 1 => some (VRed.dec .vredtSum r)
  | 2 => some (VRed.dec .vredMax r)
  | 3 => some (VRed.dec .vredMin r)
  | 4 => some (VRed.dec .vredAnd r)
  | 5 => some (VRed.dec .vredOr r)
  | 6 => some (VRed.dec .vredXor r)
  | 7 => some (VRedS.dec .vredsSum r)
  | 8 => some (VRedS.dec .vredsMean r)
  | _ => none

/-- Opcode 0x74 (R303); none for an unlisted function code. -/
def dec74 (r : Raw) : Option Parsed :=
  match r.fn.val with
  | 0 => some (VRed.dec .vsscanSum r)
  | 1 => some (VRed.dec .vsscanMax r)
  | 2 => some (VRed.dec .vsredSum r)
  | 3 => some (VRed.dec .vsredMax r)
  | _ => none

/-- Opcode 0x78 (R303); none for an unlisted function code. -/
def dec78 (r : Raw) : Option Parsed :=
  match r.fn.val with
  | 0 => some (VCvt.dec .vcvt r)
  | 1 => some (VCvt2.dec .vcvti r)
  | 2 => some (VCvt2.dec .vicvt r)
  | 3 => some (VQnt.dec .vquant r)
  | _ => none

/-- Opcode 0xA0 (R303); none for an unlisted function code. -/
def decA0 (r : Raw) : Option Parsed :=
  match r.fn.val with
  | 0 => some (VLdF.dec .vld r)
  | _ => none

/-- Opcode 0xA1 (R303); none for an unlisted function code. -/
def decA1 (r : Raw) : Option Parsed :=
  match r.fn.val with
  | 0 => some (VStF.dec .vst r)
  | _ => none

/-- Opcode 0xA2 (R303); none for an unlisted function code. -/
def decA2 (r : Raw) : Option Parsed :=
  match r.fn.val with
  | 0 => some (VLdsF.dec .vlds r)
  | _ => none

/-- Opcode 0xA3 (R303); none for an unlisted function code. -/
def decA3 (r : Raw) : Option Parsed :=
  match r.fn.val with
  | 0 => some (VStsF.dec .vsts r)
  | _ => none

/-- Opcode 0xA4 (R303); none for an unlisted function code. -/
def decA4 (r : Raw) : Option Parsed :=
  match r.fn.val with
  | 0 => some (VGathF.dec .vgath r)
  | _ => none

/-- Opcode 0xA5 (R303); none for an unlisted function code. -/
def decA5 (r : Raw) : Option Parsed :=
  match r.fn.val with
  | 0 => some (VScatF.dec .vscat r)
  | _ => none

/-- Opcode 0xA6 (R303); none for an unlisted function code. -/
def decA6 (r : Raw) : Option Parsed :=
  match r.fn.val with
  | 0 => some (VLdF.dec .vldff r)
  | _ => none

/-- Opcode 0xA7 (R303); none for an unlisted function code. -/
def decA7 (r : Raw) : Option Parsed :=
  match r.fn.val with
  | 0 => some (VLdsF.dec .vldt r)
  | _ => none

/-- Opcode 0xB0 (R303); none for an unlisted function code. -/
def decB0 (r : Raw) : Option Parsed :=
  match r.fn.val with
  | 0 => some (MAttF.dec .matt r)
  | 1 => some (MDetF.dec .mdet r)
  | 2 => some (MZeroF.dec .mzero r)
  | 3 => some (MmaF.dec .mma r)
  | 4 => some (MmamF.dec .mmam r)
  | 5 => some (MRowF.dec .mldt r)
  | 6 => some (MSttF.dec .mstt r)
  | 7 => some (decMmov r)
  | _ => none

/-- Opcode 0xB1 (R303); none for an unlisted function code. -/
def decB1 (r : Raw) : Option Parsed :=
  match r.fn.val with
  | 0 => some (MmaBF.dec .mmaBlock r)
  | 1 => some (MmamBF.dec .mmamBlock r)
  | _ => none

/-- Opcode 0xC0 (R303); none for an unlisted function code. -/
def decC0 (r : Raw) : Option Parsed :=
  match r.fn.val with
  | 0 => some (ForkF.dec .fork r)
  | _ => none

/-- Opcode 0xC1 (R303); none for an unlisted function code. -/
def decC1 (r : Raw) : Option Parsed :=
  match r.fn.val with
  | 0 => some (r.none .chk)
  | 1 => some (r.none .join)
  | 2 => some (r.none .nospec)
  | _ => none

/-- Opcode 0xC2 (R303); none for an unlisted function code. -/
def decC2 (r : Raw) : Option Parsed :=
  match r.fn.val with
  | 0 => some (RegImm.dec .ind r)
  | _ => none

/-- Opcode 0xC8 (R303); none for an unlisted function code. -/
def decC8 (r : Raw) : Option Parsed :=
  match r.fn.val with
  | 0 => some (RegImm.dec .rgnBegin r)
  | _ => none

/-- Opcode 0xC9 (R303); none for an unlisted function code. -/
def decC9 (r : Raw) : Option Parsed :=
  match r.fn.val with
  | 0 => some (KeepF.dec .rgnKeep r)
  | 1 => some (r.none .rgnEnd)
  | _ => none

/-- Opcode 0xD0 (R303); none for an unlisted function code. -/
def decD0 (r : Raw) : Option Parsed :=
  match r.fn.val with
  | 0 => some (SendF.dec .send r)
  | 1 => some (SendF.dec .sends r)
  | 2 => some (MBufF.dec .mpoll r)
  | 3 => some (MBufF.dec .mwait r)
  | 4 => some (MBufF.dec .mpop r)
  | 5 => some (RatomF.dec .ratom r)
  | _ => none

/-- Opcode 0xD8 (R303); none for an unlisted function code. -/
def decD8 (r : Raw) : Option Parsed :=
  match r.fn.val with
  | 0 => some (CpyF.dec .cpy r)
  | 1 => some (CpyvF.dec .cpyv r)
  | 2 => some (DrainF.dec .drain r)
  | 3 => some (TriF.dec .pref r)
  | 4 => some (DuoF.dec .qwait r)
  | _ => none

/-- Opcode 0xE0 (R303); none for an unlisted function code. -/
def decE0 (r : Raw) : Option Parsed :=
  match r.fn.val with
  | 0 => some (DuoF.dec .arm r)
  | 1 => some (QPushF.dec .qpush r)
  | 2 => some (TriF.dec .qpop r)
  | 3 => some (ExitF.dec .exit r)
  | _ => none

/-- The length in bytes that an opcode has, none for an unlisted one (R303). -/
def opLen (op : Nat) : Option Nat :=
  match op with
  | 0x00 | 0x10 | 0x12 | 0x20 | 0x30 | 0x31 | 0x32 | 0x44 | 0x50 | 0x58 | 0x59 | 0x61
  | 0x62 | 0x64 | 0x65 | 0x68 | 0x69 | 0x6C | 0x70 | 0x74 | 0x78 | 0xA4 | 0xA5 | 0xB0
  | 0xC1 | 0xC9 | 0xD0 | 0xD8 | 0xE0 => some 8
  | 0x40 | 0x41 | 0x42 | 0x60 | 0x63 | 0xA0 | 0xA1 | 0xA2 | 0xA3 | 0xA6 | 0xA7 | 0xC0
  | 0xC2 | 0xC8 => some 12
  | 0x11 | 0xB1 => some 16
  | _ => none

/-- The instruction of a listed opcode from its words; none for an unlisted fn, fn5 or cnd (R303). -/
def decodeOp (op w0 w1 w2 w3 : Nat) : Option Parsed :=
  match op with
  | 0x00 => dec00 (Raw.ofWords w0 w1 w2 w3)
  | 0x10 => decSI10 (RawSI.ofWords w0 w1)
  | 0x11 => dec11 (Raw.ofWords w0 w1 w2 w3)
  | 0x12 => decSI12 (RawSI.ofWords w0 w1)
  | 0x20 => dec20 (Raw.ofWords w0 w1 w2 w3)
  | 0x30 => dec30 (Raw.ofWords w0 w1 w2 w3)
  | 0x31 => decBranch (RawBR.ofWords w0 w1)
  | 0x32 => decCall (RawBR.ofWords w0 w1)
  | 0x40 => dec40 (Raw.ofWords w0 w1 w2 w3)
  | 0x41 => dec41 (Raw.ofWords w0 w1 w2 w3)
  | 0x42 => dec42 (Raw.ofWords w0 w1 w2 w3)
  | 0x44 => dec44 (Raw.ofWords w0 w1 w2 w3)
  | 0x50 => dec50 (Raw.ofWords w0 w1 w2 w3)
  | 0x58 => decSI58 (RawSI.ofWords w0 w1)
  | 0x59 => dec59 (Raw.ofWords w0 w1 w2 w3)
  | 0x60 => dec60 (Raw.ofWords w0 w1 w2 w3)
  | 0x61 => dec61 (Raw.ofWords w0 w1 w2 w3)
  | 0x62 => dec62 (Raw.ofWords w0 w1 w2 w3)
  | 0x63 => dec63 (Raw.ofWords w0 w1 w2 w3)
  | 0x64 => dec64 (Raw.ofWords w0 w1 w2 w3)
  | 0x65 => dec65 (Raw.ofWords w0 w1 w2 w3)
  | 0x68 => dec68 (Raw.ofWords w0 w1 w2 w3)
  | 0x69 => dec69 (Raw.ofWords w0 w1 w2 w3)
  | 0x6C => dec6C (Raw.ofWords w0 w1 w2 w3)
  | 0x70 => dec70 (Raw.ofWords w0 w1 w2 w3)
  | 0x74 => dec74 (Raw.ofWords w0 w1 w2 w3)
  | 0x78 => dec78 (Raw.ofWords w0 w1 w2 w3)
  | 0xA0 => decA0 (Raw.ofWords w0 w1 w2 w3)
  | 0xA1 => decA1 (Raw.ofWords w0 w1 w2 w3)
  | 0xA2 => decA2 (Raw.ofWords w0 w1 w2 w3)
  | 0xA3 => decA3 (Raw.ofWords w0 w1 w2 w3)
  | 0xA4 => decA4 (Raw.ofWords w0 w1 w2 w3)
  | 0xA5 => decA5 (Raw.ofWords w0 w1 w2 w3)
  | 0xA6 => decA6 (Raw.ofWords w0 w1 w2 w3)
  | 0xA7 => decA7 (Raw.ofWords w0 w1 w2 w3)
  | 0xB0 => decB0 (Raw.ofWords w0 w1 w2 w3)
  | 0xB1 => decB1 (Raw.ofWords w0 w1 w2 w3)
  | 0xC0 => decC0 (Raw.ofWords w0 w1 w2 w3)
  | 0xC1 => decC1 (Raw.ofWords w0 w1 w2 w3)
  | 0xC2 => decC2 (Raw.ofWords w0 w1 w2 w3)
  | 0xC8 => decC8 (Raw.ofWords w0 w1 w2 w3)
  | 0xC9 => decC9 (Raw.ofWords w0 w1 w2 w3)
  | 0xD0 => decD0 (Raw.ofWords w0 w1 w2 w3)
  | 0xD8 => decD8 (Raw.ofWords w0 w1 w2 w3)
  | 0xE0 => decE0 (Raw.ofWords w0 w1 w2 w3)
  | _ => none

/-- What decoding answers: an instruction with its length in bytes, or the sub-cause of trap 0x01. -/
inductive Decoded where
  | ok (i : Instr) (len : Nat)
  | illegal (sub : Nat)
  deriving DecidableEq, Repr

/-- The last three tests of R306, in their order: sub-cause 2, then 8, then 7. -/
def Parsed.verdict (p : Parsed) (len : Nat) : Decoded :=
  if p.b2 || p.i.wfSub == some 2 then .illegal 2
  else if p.b8 || p.i.wfSub == some 8 then .illegal 8
  else if p.i.wfSub == some 7 then .illegal 7
  else .ok p.i len

/-- The length in bytes that the length code announces (R292). -/
def lenOf (w0 : Nat) : Nat := if w0 % 4 = 0 then 8 else if w0 % 4 = 1 then 12 else 16

/-- The decoding sequence of R306 for an instruction at block offset `off` whose words are `w0` to `w3`. Words that
stand beyond the instruction are not read. -/
def decodeWords (off w0 w1 w2 w3 : Nat) : Decoded :=
  if off = 28 ∧ w0 = 0xC0 then .ok .padWord 4
  else if w0 % 4 = 3 then .illegal 3
  else if off + lenOf w0 > 32 then .illegal 4
  else if lenOf w0 = 8 ∧ w0 = 0 ∧ w1 = 0 then .illegal 5
  else if w0 / 4 % 256 = 0xFF then .illegal 6
  else if opLen (w0 / 4 % 256) ≠ some (lenOf w0) then .illegal 1
  else
    match decodeOp (w0 / 4 % 256) w0 w1 (if 12 ≤ lenOf w0 then w2 else 0) (if 16 ≤ lenOf w0 then w3 else 0) with
    | none => .illegal 2
    | some p => p.verdict (lenOf w0)

/-- A little-endian 32-bit word at the front of a list of bytes; bytes that are not there read as zero. -/
def word32 : List Byte → Nat
  | b0 :: b1 :: b2 :: b3 :: _ => b0.toNat + 256 * b1.toNat + 65536 * b2.toNat + 16777216 * b3.toNat
  | b0 :: b1 :: b2 :: _ => b0.toNat + 256 * b1.toNat + 65536 * b2.toNat
  | b0 :: b1 :: _ => b0.toNat + 256 * b1.toNat
  | b0 :: _ => b0.toNat
  | [] => 0

/-- Decode the bytes from an instruction's first byte to the end of its 32-byte block (R293). -/
def decode (off : Nat) (bs : List Byte) : Decoded :=
  decodeWords off (word32 bs) (word32 (bs.drop 4)) (word32 (bs.drop 8)) (word32 (bs.drop 12))

/-! ### The encoder -/

/-- A C64 instruction. -/
def c64 (op : Nat) (r : Raw) : Option (List Nat) := some [r.word0 0 op, r.word1]

/-- A C96 instruction. -/
def c96 (op : Nat) (r : Raw) : Option (List Nat) := some [r.word0 1 op, r.word1, r.x.toNat % 4294967296]

/-- A C128 instruction. -/
def c128 (op : Nat) (r : Raw) : Option (List Nat) :=
  some [r.word0 2 op, r.word1, r.x.toNat % 4294967296, r.x.toNat / 4294967296]

/-- A scalar-immediate instruction. -/
def si (op : Nat) (r : RawSI) : Option (List Nat) := some (r.words op)

/-- A branch. -/
def br (op : Nat) (r : RawBR) : Option (List Nat) := some (r.words op)

/-- A comparing branch. -/
def BrCmp.enc (cnd : Fin 16) (o : BrCmp) : RawBR := { a := o.a, b := o.b, cnd := cnd, off := o.off }

/-- The words of an instruction, lowest address first; none for a step of the module, which has no encoding. -/
def encode : Instr → Option (List Nat)
  | .padWord => some [0xC0]
  | .add o => c64 0x00 (o.enc 0x00)
  | .sub o => c64 0x00 (o.enc 0x01)
  | .mul o => c64 0x00 (o.enc 0x02)
  | .mulh o => c64 0x00 (o.enc 0x03)
  | .div o => c64 0x00 (o.enc 0x04)
  | .rem o => c64 0x00 (o.enc 0x05)
  | .and o => c64 0x00 (o.enc 0x06)
  | .or o => c64 0x00 (o.enc 0x07)
  | .xor o => c64 0x00 (o.enc 0x08)
  | .andn o => c64 0x00 (o.enc 0x09)
  | .sll o => c64 0x00 (o.enc 0x0A)
  | .srl o => c64 0x00 (o.enc 0x0B)
  | .sra o => c64 0x00 (o.enc 0x0C)
  | .rol o => c64 0x00 (o.enc 0x0D)
  | .min o => c64 0x00 (o.enc 0x0E)
  | .max o => c64 0x00 (o.enc 0x0F)
  | .adds o => c64 0x00 (o.enc 0x10)
  | .subs o => c64 0x00 (o.enc 0x11)
  | .seq o => c64 0x00 (o.enc 0x12)
  | .slt o => c64 0x00 (o.enc 0x13)
  | .sle o => c64 0x00 (o.enc 0x14)
  | .sel o => c64 0x00 (o.enc 0x15)
  | .clz o => c64 0x00 (o.enc 0x16)
  | .ctz o => c64 0x00 (o.enc 0x17)
  | .popc o => c64 0x00 (o.enc 0x18)
  | .ext o => c64 0x00 (o.enc 0x19)
  | .mov o => c64 0x00 (o.enc 0x1A)
  | .liImm64 o => c128 0x11 (o.enc 0x00)
  | .fadd o => c64 0x20 (o.enc 0x00)
  | .fsub o => c64 0x20 (o.enc 0x01)
  | .fmul o => c64 0x20 (o.enc 0x02)
  | .fdiv o => c64 0x20 (o.enc 0x03)
  | .fsqrt o => c64 0x20 (o.enc 0x04)
  | .fma o => c64 0x20 (o.enc 0x05)
  | .fmin o => c64 0x20 (o.enc 0x06)
  | .fmax o => c64 0x20 (o.enc 0x07)
  | .fsgn o => c64 0x20 (o.enc 0x08)
  | .feq o => c64 0x20 (o.enc 0x09)
  | .flt o => c64 0x20 (o.enc 0x0A)
  | .fle o => c64 0x20 (o.enc 0x0B)
  | .fclass o => c64 0x20 (o.enc 0x0C)
  | .fcvt o => c64 0x20 (o.enc 0x0D)
  | .fcvti o => c64 0x20 (o.enc 0x0E)
  | .ficvt o => c64 0x20 (o.enc 0x0F)
  | .nop o => c64 0x30 (o.enc 0x00)
  | .jr o => c64 0x30 (o.enc 0x01)
  | .jalr o => c64 0x30 (o.enc 0x02)
  | .ret o => c64 0x30 (o.enc 0x03)
  | .ld o => c96 0x40 (o.enc 0x00)
  | .ldp o => c96 0x40 (o.enc 0x01)
  | .st o => c96 0x41 (o.enc 0x00)
  | .stp o => c96 0x41 (o.enc 0x01)
  | .fst o => c96 0x42 (o.enc 0x00)
  | .amoadd o => c64 0x44 (o.enc 0x00)
  | .amoand o => c64 0x44 (o.enc 0x01)
  | .amoor o => c64 0x44 (o.enc 0x02)
  | .amoxor o => c64 0x44 (o.enc 0x03)
  | .amoswap o => c64 0x44 (o.enc 0x04)
  | .amocas o => c64 0x44 (o.enc 0x05)
  | .amomin o => c64 0x44 (o.enc 0x06)
  | .amomax o => c64 0x44 (o.enc 0x07)
  | .amofadd o => c64 0x44 (o.enc 0x08)
  | .amofmax o => c64 0x44 (o.enc 0x09)
  | .fenceAcq o => c64 0x50 (o.enc 0x00)
  | .fenceRel o => c64 0x50 (o.enc 0x01)
  | .fenceFull o => c64 0x50 (o.enc 0x02)
  | .ssync o => c64 0x50 (o.enc 0x03)
  | .relWiden o => c64 0x50 (o.enc 0x04)
  | .tret => c64 0x59 { fn := 0 }
  | .uret => c64 0x59 { fn := 1 }
  | .setvl o => c96 0x60 (o.enc 0x00)
  | .setvt o => c96 0x60 (o.enc 0x01)
  | .vloop o => c96 0x60 (o.enc 0x02)
  | .vlend o => c96 0x60 (o.enc 0x03)
  | .vadd o => c64 0x61 (o.enc 0x00)
  | .vsub o => c64 0x61 (o.enc 0x01)
  | .vmul o => c64 0x61 (o.enc 0x02)
  | .vmulh o => c64 0x61 (o.enc 0x03)
  | .vdiv o => c64 0x61 (o.enc 0x04)
  | .vrem o => c64 0x61 (o.enc 0x05)
  | .vand o => c64 0x61 (o.enc 0x06)
  | .vor o => c64 0x61 (o.enc 0x07)
  | .vxor o => c64 0x61 (o.enc 0x08)
  | .vandn o => c64 0x61 (o.enc 0x09)
  | .vsll o => c64 0x61 (o.enc 0x0A)
  | .vsrl o => c64 0x61 (o.enc 0x0B)
  | .vsra o => c64 0x61 (o.enc 0x0C)
  | .vmin o => c64 0x61 (o.enc 0x0D)
  | .vmax o => c64 0x61 (o.enc 0x0E)
  | .vadds o => c64 0x61 (o.enc 0x0F)
  | .vsubs o => c64 0x61 (o.enc 0x10)
  | .vabs o => c64 0x61 (o.enc 0x11)
  | .vneg o => c64 0x61 (o.enc 0x12)
  | .vmov o => c64 0x61 (o.enc 0x13)
  | .vsel o => c64 0x61 (o.enc 0x14)
  | .vext o => c64 0x61 (o.enc 0x15)
  | .vaddScalar o => c64 0x62 (o.enc 0x00)
  | .vsubScalar o => c64 0x62 (o.enc 0x01)
  | .vmulScalar o => c64 0x62 (o.enc 0x02)
  | .vmulhScalar o => c64 0x62 (o.enc 0x03)
  | .vdivScalar o => c64 0x62 (o.enc 0x04)
  | .vremScalar o => c64 0x62 (o.enc 0x05)
  | .vandScalar o => c64 0x62 (o.enc 0x06)
  | .vorScalar o => c64 0x62 (o.enc 0x07)
  | .vxorScalar o => c64 0x62 (o.enc 0x08)
  | .vandnScalar o => c64 0x62 (o.enc 0x09)
  | .vsllScalar o => c64 0x62 (o.enc 0x0A)
  | .vsrlScalar o => c64 0x62 (o.enc 0x0B)
  | .vsraScalar o => c64 0x62 (o.enc 0x0C)
  | .vminScalar o => c64 0x62 (o.enc 0x0D)
  | .vmaxScalar o => c64 0x62 (o.enc 0x0E)
  | .vaddsScalar o => c64 0x62 (o.enc 0x0F)
  | .vsubsScalar o => c64 0x62 (o.enc 0x10)
  | .vselScalar o => c64 0x62 (o.enc 0x14)
  | .vextScalar o => c64 0x62 (o.enc 0x15)
  | .vaddImm o => c96 0x63 (o.enc 0x00)
  | .vsubImm o => c96 0x63 (o.enc 0x01)
  | .vmulImm o => c96 0x63 (o.enc 0x02)
  | .vmulhImm o => c96 0x63 (o.enc 0x03)
  | .vdivImm o => c96 0x63 (o.enc 0x04)
  | .vremImm o => c96 0x63 (o.enc 0x05)
  | .vandImm o => c96 0x63 (o.enc 0x06)
  | .vorImm o => c96 0x63 (o.enc 0x07)
  | .vxorImm o => c96 0x63 (o.enc 0x08)
  | .vandnImm o => c96 0x63 (o.enc 0x09)
  | .vsllImm o => c96 0x63 (o.enc 0x0A)
  | .vsrlImm o => c96 0x63 (o.enc 0x0B)
  | .vsraImm o => c96 0x63 (o.enc 0x0C)
  | .vminImm o => c96 0x63 (o.enc 0x0D)
  | .vmaxImm o => c96 0x63 (o.enc 0x0E)
  | .vaddsImm o => c96 0x63 (o.enc 0x0F)
  | .vsubsImm o => c96 0x63 (o.enc 0x10)
  | .vselImm o => c96 0x63 (o.enc 0x14)
  | .vextImm o => c96 0x63 (o.enc 0x15)
  | .vfadd o => c64 0x64 (o.enc 0x00)
  | .vfsub o => c64 0x64 (o.enc 0x01)
  | .vfmul o => c64 0x64 (o.enc 0x02)
  | .vfdiv o => c64 0x64 (o.enc 0x03)
  | .vfsqrt o => c64 0x64 (o.enc 0x04)
  | .vfma o => c64 0x64 (o.enc 0x05)
  | .vfms o => c64 0x64 (o.enc 0x06)
  | .vfnma o => c64 0x64 (o.enc 0x07)
  | .vfmin o => c64 0x64 (o.enc 0x08)
  | .vfmax o => c64 0x64 (o.enc 0x09)
  | .vfsgn o => c64 0x64 (o.enc 0x0A)
  | .vfabs o => c64 0x64 (o.enc 0x0B)
  | .vfneg o => c64 0x64 (o.enc 0x0C)
  | .vfaddScalar o => c64 0x65 (o.enc 0x00)
  | .vfsubScalar o => c64 0x65 (o.enc 0x01)
  | .vfmulScalar o => c64 0x65 (o.enc 0x02)
  | .vfdivScalar o => c64 0x65 (o.enc 0x03)
  | .vfmaScalar o => c64 0x65 (o.enc 0x05)
  | .vfmsScalar o => c64 0x65 (o.enc 0x06)
  | .vfnmaScalar o => c64 0x65 (o.enc 0x07)
  | .vfminScalar o => c64 0x65 (o.enc 0x08)
  | .vfmaxScalar o => c64 0x65 (o.enc 0x09)
  | .vfsgnScalar o => c64 0x65 (o.enc 0x0A)
  | .vcmpEq o => c64 0x68 (o.enc 0x00)
  | .vcmpNe o => c64 0x68 (o.enc 0x01)
  | .vcmpLt o => c64 0x68 (o.enc 0x02)
  | .vcmpLe o => c64 0x68 (o.enc 0x03)
  | .vcmpGt o => c64 0x68 (o.enc 0x04)
  | .vcmpGe o => c64 0x68 (o.enc 0x05)
  | .vcmpUn o => c64 0x68 (o.enc 0x06)
  | .vfclass o => c64 0x68 (o.enc 0x07)
  | .pand o => c64 0x69 (o.enc 0x00)
  | .por o => c64 0x69 (o.enc 0x01)
  | .pxor o => c64 0x69 (o.enc 0x02)
  | .pandn o => c64 0x69 (o.enc 0x03)
  | .pnot o => c64 0x69 (o.enc 0x04)
  | .pmov o => c64 0x69 (o.enc 0x05)
  | .pfirst o => c64 0x69 (o.enc 0x06)
  | .pcount o => c64 0x69 (o.enc 0x07)
  | .pset o => c64 0x69 (o.enc 0x08)
  | .vperm o => c64 0x6C (o.enc 0x00)
  | .vbcast o => c64 0x6C (o.enc 0x01)
  | .vslideup o => c64 0x6C (o.enc 0x02)
  | .vslidedn o => c64 0x6C (o.enc 0x03)
  | .vcompress o => c64 0x6C (o.enc 0x04)
  | .vexpand o => c64 0x6C (o.enc 0x05)
  | .vextr o => c64 0x6C (o.enc 0x06)
  | .vins o => c64 0x6C (o.enc 0x07)
  | .vrev o => c64 0x6C (o.enc 0x08)
  | .vredoSum o => c64 0x70 (o.enc 0x00)
  | .vredtSum o => c64 0x70 (o.enc 0x01)
  | .vredMax o => c64 0x70 (o.enc 0x02)
  | .vredMin o => c64 0x70 (o.enc 0x03)
  | .vredAnd o => c64 0x70 (o.enc 0x04)
  | .vredOr o => c64 0x70 (o.enc 0x05)
  | .vredXor o => c64 0x70 (o.enc 0x06)
  | .vredsSum o => c64 0x70 (o.enc 0x07)
  | .vredsMean o => c64 0x70 (o.enc 0x08)
  | .vsscanSum o => c64 0x74 (o.enc 0x00)
  | .vsscanMax o => c64 0x74 (o.enc 0x01)
  | .vsredSum o => c64 0x74 (o.enc 0x02)
  | .vsredMax o => c64 0x74 (o.enc 0x03)
  | .vcvt o => c64 0x78 (o.enc 0x00)
  | .vcvti o => c64 0x78 (o.enc 0x01)
  | .vicvt o => c64 0x78 (o.enc 0x02)
  | .vquant o => c64 0x78 (o.enc 0x03)
  | .vld o => c96 0xA0 (o.enc 0x00)
  | .vst o => c96 0xA1 (o.enc 0x00)
  | .vlds o => c96 0xA2 (o.enc 0x00)
  | .vsts o => c96 0xA3 (o.enc 0x00)
  | .vgath o => c64 0xA4 (o.enc 0x00)
  | .vscat o => c64 0xA5 (o.enc 0x00)
  | .vldff o => c96 0xA6 (o.enc 0x00)
  | .vldt o => c96 0xA7 (o.enc 0x00)
  | .matt o => c64 0xB0 (o.enc 0x00)
  | .mdet o => c64 0xB0 (o.enc 0x01)
  | .mzero o => c64 0xB0 (o.enc 0x02)
  | .mma o => c64 0xB0 (o.enc 0x03)
  | .mmam o => c64 0xB0 (o.enc 0x04)
  | .mldt o => c64 0xB0 (o.enc 0x05)
  | .mstt o => c64 0xB0 (o.enc 0x06)
  | .mmov o => c64 0xB0 (o.enc 7)
  | .mmovWr o => c64 0xB0 (o.enc 7)
  | .mmaBlock o => c128 0xB1 (o.enc 0x00)
  | .mmamBlock o => c128 0xB1 (o.enc 0x01)
  | .fork o => c96 0xC0 (o.enc 0x00)
  | .chk => c64 0xC1 { fn := 0 }
  | .join => c64 0xC1 { fn := 1 }
  | .nospec => c64 0xC1 { fn := 2 }
  | .ind o => c96 0xC2 (o.enc 0x00)
  | .rgnBegin o => c96 0xC8 (o.enc 0x00)
  | .rgnKeep o => c64 0xC9 (o.enc 0x00)
  | .rgnEnd => c64 0xC9 { fn := 1 }
  | .send o => c64 0xD0 (o.enc 0x00)
  | .sends o => c64 0xD0 (o.enc 0x01)
  | .mpoll o => c64 0xD0 (o.enc 0x02)
  | .mwait o => c64 0xD0 (o.enc 0x03)
  | .mpop o => c64 0xD0 (o.enc 0x04)
  | .ratom o => c64 0xD0 (o.enc 0x05)
  | .cpy o => c64 0xD8 (o.enc 0x00)
  | .cpyv o => c64 0xD8 (o.enc 0x01)
  | .drain o => c64 0xD8 (o.enc 0x02)
  | .pref o => c64 0xD8 (o.enc 0x03)
  | .qwait o => c64 0xD8 (o.enc 0x04)
  | .arm o => c64 0xE0 (o.enc 0x00)
  | .qpush o => c64 0xE0 (o.enc 0x01)
  | .qpop o => c64 0xE0 (o.enc 0x02)
  | .exit o => c64 0xE0 (o.enc 0x03)
  | .addi o => si 0x10 (o.enc 0)
  | .andi o => si 0x10 (o.enc 1)
  | .ori o => si 0x10 (o.enc 2)
  | .xori o => si 0x10 (o.enc 3)
  | .slli o => si 0x10 (o.enc 4)
  | .srli o => si 0x10 (o.enc 5)
  | .srai o => si 0x10 (o.enc 6)
  | .slti o => si 0x10 (o.enc 7)
  | .sltui o => si 0x10 (o.enc 8)
  | .li o => si 0x10 (o.enc 9)
  | .lih o => si 0x10 (o.enc 10)
  | .lpc o => si 0x12 (o.enc 0)
  | .sysr o => si 0x58 o.enc
  | .sysw o => si 0x58 (encSysw o.a o.idx.val o.gd)
  | .syswVl o => si 0x58 (encSysw o.a 0x000 o.gd)
  | .syswVtype o => si 0x58 (encSysw o.a 0x002 o.gd)
  | .syswSrseed o => si 0x58 (encSysw o.a 0x006 o.gd)
  | .syswTshape o => si 0x58 (encSysw o.a 0x011 o.gd)
  | .syswSpecst o => si 0x58 (encSysw o.a 0x019 o.gd)
  | .syswSmev o => si 0x58 (encSysw o.a 0x01C o.gd)
  | .syswTstk o => si 0x58 (encSysw o.a 0x040 o.gd)
  | .syswRb o => si 0x58 (encSysw o.a (0x020 + o.n.val) o.gd)
  | .b o => br 0x31 { cnd := 0, off := o.off }
  | .beq o => br 0x31 (o.enc 1)
  | .bne o => br 0x31 (o.enc 2)
  | .blt o => br 0x31 (o.enc 3)
  | .bge o => br 0x31 (o.enc 4)
  | .bltu o => br 0x31 (o.enc 5)
  | .bgeu o => br 0x31 (o.enc 6)
  | .bpt o => br 0x31 { a := o.r, cnd := 7, off := o.off }
  | .bpf o => br 0x31 { a := o.r, cnd := 8, off := o.off }
  | .call o => br 0x32 { d := o.r, off := o.off }
  | _ => none

/-- The bytes of a word, in ascending address order (R8). -/
def wordBytes (w : Nat) : List Byte :=
  [BitVec.ofNat 8 w, BitVec.ofNat 8 (w / 256), BitVec.ofNat 8 (w / 65536), BitVec.ofNat 8 (w / 16777216)]

/-- The block offset at which the pad word is one (R293); every other instruction is laid at offset 0. (PRESUMED: log 100) -/
def tableOff (nbits w : Nat) : Nat := if nbits = 32 ∧ w = 0xC0 then 28 else 0

/-- The bytes of an instruction whose bits are `w`, zero above `nbits`, 16 of them. -/
def tableBytes (nbits w : Nat) : List Byte :=
  let v := w % 2 ^ nbits
  wordBytes v ++ wordBytes (v / 2 ^ 32) ++ wordBytes (v / 2 ^ 64) ++ wordBytes (v / 2 ^ 96)

/-- The instruction the decoder reads from the bits `w` of an opcode-table row. (PRESUMED: log 100) -/
def decodeTableWord (nbits w : Nat) : Option Instr :=
  match decode (tableOff nbits w) (tableBytes nbits w) with
  | .ok i _ => some i
  | .illegal _ => none

end

end Sys2Proof
end

