-- ==== Sys2Proof/Machine/Issue.lean ====
section
/-! DEFINITION. How the module moves: which core issues, fetching and decoding its instruction (R222, R292–R294), the
live-ins a chunk exposes (R139), the instruction count (R260), and placing an instruction where the next step fetches it. -/

namespace Sys2Proof.Machine

open Sys2Proof

noncomputable section

/-! ### Which registers an instruction reads and writes -/

/-- What an instruction reads and writes of the state that chunks forward (R137): scalar and predicate registers, and, in four
bits, `vl`, `vtype`, `frm` and `tshape`; and the guard without which it writes nothing. -/
structure RegUse where
  rx : List Reg := []
  wx : List Reg := []
  rp : List Nat := []
  wp : List Nat := []
  rs : BitVec 4 := 0
  ws : BitVec 4 := 0
  gd : Option Guard := none
  deriving DecidableEq, Repr

/-- A scalar instruction. -/
def useG (gd : Guard) (rx wx : List Reg) : RegUse := { rx := rx, wx := wx, rp := [gd.g.val], gd := some gd }

/-- A scalar instruction that may round by `frm`. -/
def useF (gd : Guard) (rx wx : List Reg) : RegUse := { useG gd rx wx with rs := 4 }

/-- A vector instruction, whose guard is a mask. -/
def useV (gd : Guard) (rx wx : List Reg) : RegUse := { rx := rx, wx := wx, rp := [gd.g.val], rs := 3 }

/-- A matrix instruction. -/
def useT (gd : Guard) (rx : List Reg) : RegUse := { rx := rx, rp := [gd.g.val], rs := 10 }

/-- The register after `r`, for pairs. -/
def nextReg (r : Reg) : Reg := Fin.ofNat 64 (r.val + 1)

/-- The forwarded system registers that a `sysr` or `sysw` of an index names. -/
def sysBits (i : Nat) : BitVec 4 :=
  if i = 0x000 then 1 else if i = 0x002 then 2 else if i = 0x004 then 4 else if i = 0x011 then 8 else 0

/-- The scalar registers that hold band scales (R406). -/
def bandRegs (ty : Ty) (x : Scales) : List Reg := if ty = .fb4 then [x.xba, x.xbb] else []

/-- The scalar and predicate registers and the forwarded system registers that an instruction reads and writes, by its operand form. What
`vlend` writes its `vloop` has written in the same chunk (R371). -/
def regUse (i : Instr) : RegUse :=
  match i with
  | .add o | .sub o | .mul o | .mulh o | .div o | .rem o | .and o | .or o | .xor o | .andn o | .sll o | .srl o
  | .sra o | .rol o | .min o | .max o | .adds o | .subs o | .seq o | .slt o | .sle o | .ext o =>
      useG o.gd [o.a, o.b] [o.d]
  | .sel o => useG o.gd [o.a, o.b, o.c] [o.d]
  | .clz o | .ctz o | .popc o | .mov o => useG o.gd [o.a] [o.d]
  | .addi o | .andi o | .ori o | .xori o | .slli o | .srli o | .srai o | .slti o | .sltui o => useG o.gd [o.a] [o.d]
  | .lih o => useG o.gd [o.a] [o.d]
  | .li o | .lpc o => useG o.gd [] [o.d]
  | .liImm64 o => useG o.gd [] [o.d]
  | .fadd o | .fsub o | .fmul o | .fdiv o | .fmin o | .fmax o | .feq o | .flt o | .fle o => useF o.gd [o.a, o.b] [o.d]
  | .fsqrt o | .fclass o => useF o.gd [o.a] [o.d]
  | .fma o => useF o.gd [o.a, o.b, o.c] [o.d]
  | .fsgn o => useG o.gd [o.a, o.b] [o.d]
  | .fcvt o | .fcvti o | .ficvt o => useF o.gd [o.a] [o.d]
  | .nop o => { rp := [o.gd.g.val] }
  | .jr o | .ret o => useG o.gd [o.a] []
  | .jalr o => useG o.gd [o.a] [o.d]
  | .beq o | .bne o | .blt o | .bge o | .bltu o | .bgeu o => { rx := [o.a, o.b] }
  | .bpt o | .bpf o => { rp := [o.r.val] }
  | .call o => { wx := [o.r] }
  | .ld o => useG o.gd [o.a] [o.d]
  | .ldp o => useG o.gd [o.a] [o.d, nextReg o.d]
  | .st o => useG o.gd [o.a, o.b] []
  | .stp o => useG o.gd [o.a, o.b, nextReg o.b] []
  | .fst o => useG o.gd [o.a, o.b] []
  | .amoadd o | .amoand o | .amoor o | .amoxor o | .amoswap o | .amomin o | .amomax o | .amofadd o | .amofmax o =>
      useG o.gd [o.a, o.b] [o.d]
  | .amocas o => useG o.gd [o.a, o.b, o.c] [o.d]
  | .relWiden o => { rx := [o.a] }
  | .sysr o => { useG o.gd [] [o.d] with rs := if o.idx.val = 0x001 then 2 else sysBits o.idx.val }
  | .sysw o => { useG o.gd [o.a] [] with rs := sysBits o.idx.val, ws := sysBits o.idx.val }
  | .syswRb o => useG o.gd [o.a] []
  | .syswSmev o | .syswTstk o | .syswSrseed o | .syswSpecst o => useG o.gd [o.a] []
  | .syswVl o => { useG o.gd [o.a] [] with rs := 2, ws := 1 }
  | .syswVtype o => { useG o.gd [o.a] [] with rs := 3, ws := 3 }
  | .syswTshape o => { useG o.gd [o.a] [] with rs := 8, ws := 8 }
  | .setvl o => { useG o.gd [o.a] [o.d] with rs := 2, ws := 1 }
  | .setvt o => { useG o.gd [o.a] [o.d] with rs := 3, ws := 3 }
  | .vloop o => { useG o.gd [o.a] [o.d] with rs := 2, ws := 1 }
  | .vlend o => { useG o.gd [] [] with rs := 2 }
  | .vadd o | .vsub o | .vmul o | .vmulh o | .vdiv o | .vrem o | .vand o | .vor o | .vxor o | .vandn o | .vsll o
  | .vsrl o | .vsra o | .vmin o | .vmax o | .vadds o | .vsubs o | .vext o | .vperm o => useV o.gd [] []
  | .vabs o | .vneg o | .vmov o | .vcompress o | .vexpand o | .vrev o => useV o.gd [] []
  | .vsel o => { useV o.gd [] [] with rp := [o.gd.g.val, o.c.val] }
  | .vselScalar o => { useV o.gd [o.b] [] with rp := [o.gd.g.val, o.c.val] }
  | .vselImm o => { useV o.gd [] [] with rp := [o.gd.g.val, o.c.val] }
  | .vaddScalar o | .vsubScalar o | .vmulScalar o | .vmulhScalar o | .vdivScalar o | .vremScalar o | .vandScalar o
  | .vorScalar o | .vxorScalar o | .vandnScalar o | .vsllScalar o | .vsrlScalar o | .vsraScalar o | .vminScalar o
  | .vmaxScalar o | .vaddsScalar o | .vsubsScalar o | .vextScalar o | .vslideup o | .vslidedn o => useV o.gd [o.b] []
  | .vaddImm o | .vsubImm o | .vmulImm o | .vmulhImm o | .vdivImm o | .vremImm o | .vandImm o | .vorImm o | .vxorImm o
  | .vandnImm o | .vsllImm o | .vsrlImm o | .vsraImm o | .vminImm o | .vmaxImm o | .vaddsImm o | .vsubsImm o
  | .vextImm o => useV o.gd [] []
  | .vextr o => useV o.gd [o.b] [o.d]
  | .vins o => useV o.gd [o.a, o.b] []
  | .vbcast o => useV o.gd [o.a] []
  | .vfadd o | .vfsub o | .vfmul o | .vfdiv o | .vfmin o | .vfmax o => useV o.gd [] []
  | .vfsqrt o | .vfabs o | .vfneg o => useV o.gd [] []
  | .vfma o | .vfms o | .vfnma o => useV o.gd [] []
  | .vfsgn o => useV o.gd [] []
  | .vfaddScalar o | .vfsubScalar o | .vfmulScalar o | .vfdivScalar o | .vfminScalar o | .vfmaxScalar o =>
      useV o.gd [o.b] []
  | .vfmaScalar o | .vfmsScalar o | .vfnmaScalar o => useV o.gd [o.b] []
  | .vfsgnScalar o => useV o.gd [o.b] []
  | .vcmpEq o | .vcmpNe o | .vcmpLt o | .vcmpLe o | .vcmpGt o | .vcmpGe o | .vcmpUn o =>
      { rx := if o.xb then [o.b] else [], rp := [o.gd.g.val, o.d.val], wp := [o.d.val], rs := 3 }
  | .vfclass o => { rx := [o.b], rp := [o.gd.g.val, o.d.val], wp := [o.d.val], rs := 3 }
  | .pand o | .por o | .pxor o | .pandn o =>
      { rp := [o.gd.g.val, o.a.val, o.b.val, o.d.val], wp := [o.d.val], rs := 3 }
  | .pnot o | .pmov o => { rp := [o.gd.g.val, o.a.val, o.d.val], wp := [o.d.val], rs := 3 }
  | .pfirst o | .pcount o => { rp := [o.gd.g.val, o.a.val], wx := [o.d], rs := 3 }
  | .pset o => { rx := [o.a], rp := [o.gd.g.val, o.d.val], wp := [o.d.val], rs := 3 }
  | .vredoSum o | .vredtSum o | .vredMax o | .vredMin o | .vredAnd o | .vredOr o | .vredXor o => useV o.gd [o.b] [o.d]
  | .vredsSum o | .vredsMean o => useV o.gd [o.b, o.c] [o.d]
  | .vsscanSum o | .vsscanMax o | .vsredSum o | .vsredMax o => { useV o.gd [] [] with rp := [o.gd.g.val, o.b.val] }
  | .vcvt o => useV o.gd [o.b] []
  | .vcvti o | .vicvt o => useV o.gd [] []
  | .vquant o => useV o.gd [o.b] []
  | .vld o | .vldff o => useV o.gd [o.a] []
  | .vst o => useV o.gd [o.a] []
  | .vlds o | .vldt o => useV o.gd [o.a, o.b] []
  | .vsts o => useV o.gd [o.a, o.b, o.c] []
  | .vgath o => useV o.gd [o.a, o.b] []
  | .vscat o => useV o.gd [o.a, o.b, o.c] []
  | .matt o => useG o.gd [o.a] [o.d]
  | .mdet o => useG o.gd [] []
  | .mzero o => useT o.gd []
  | .mma o => useT o.gd []
  | .mmam o => useT o.gd [o.b, o.c]
  | .mmaBlock o => useT o.f.gd (bandRegs o.f.ty o.s)
  | .mmamBlock o => useT o.f.gd ([o.f.b, o.f.c] ++ bandRegs o.f.ty o.s)
  | .mldt o => useT o.gd [o.a, o.b]
  | .mmov o => useG o.gd [o.b] []
  | .mstt o => useT o.gd [o.a, o.b]
  | .mmovWr o => useG o.gd [o.b] []
  | .fork o => { rx := [o.a] }
  | .rgnBegin o => { wx := [o.d] }
  | .rgnKeep o => { rx := [o.a, o.b] }
  | .send o => useG o.gd [o.a, o.b, o.c, o.d] []
  | .sends o => useG o.gd [o.a, o.b, nextReg o.b, o.c, o.d] []
  | .mpoll o | .mwait o | .mpop o => useG o.gd [] [o.d]
  | .ratom o => useG o.gd [o.a, o.b, nextReg o.b] [o.d]
  | .cpy o => useG o.gd [o.a, o.b, o.c, nextReg o.c] []
  | .cpyv o => useG o.gd [o.a, o.c] []
  | .drain o => useG o.gd [] []
  | .pref o => useG o.gd [o.a, o.b] []
  | .qpop o => useG o.gd [o.a, o.b] [o.d]
  | .qwait o => useG o.gd [] [o.d]
  | .arm o => useG o.gd [o.a] [o.d]
  | .qpush o => useG o.gd [o.a, o.b] []
  | .exit o => useG o.gd [] []
  | _ => {}

/-- Registers of a group of `n` from `r`. -/
def groupFrom (r : Reg) (n : Nat) : List Nat := (List.range n).map (fun i => r.val + i)

/-- The scale registers of a block form (R406). -/
def scaleVecs (x : Scales) : List Nat := [x.sa.val, x.sb.val, x.sb.val + 1]

/-- The vector registers that an instruction of core `c` reads or writes (R431). -/
def vecRegs (c : Core) (i : Instr) : List Nat :=
  match i with
  | .vadd o | .vsub o | .vmul o | .vmulh o | .vdiv o | .vrem o | .vand o | .vor o | .vxor o | .vandn o | .vsll o
  | .vsrl o | .vsra o | .vmin o | .vmax o | .vadds o | .vsubs o | .vext o | .vperm o => [o.d.val, o.a.val, o.b.val]
  | .vabs o | .vneg o | .vmov o | .vcompress o | .vexpand o | .vrev o => [o.d.val, o.a.val]
  | .vsel o => [o.d.val, o.a.val, o.b.val]
  | .vselScalar o => [o.d.val, o.a.val]
  | .vselImm o => [o.d.val, o.a.val]
  | .vaddScalar o | .vsubScalar o | .vmulScalar o | .vmulhScalar o | .vdivScalar o | .vremScalar o | .vandScalar o
  | .vorScalar o | .vxorScalar o | .vandnScalar o | .vsllScalar o | .vsrlScalar o | .vsraScalar o | .vminScalar o
  | .vmaxScalar o | .vaddsScalar o | .vsubsScalar o | .vextScalar o | .vslideup o | .vslidedn o => [o.d.val, o.a.val]
  | .vaddImm o | .vsubImm o | .vmulImm o | .vmulhImm o | .vdivImm o | .vremImm o | .vandImm o | .vorImm o | .vxorImm o
  | .vandnImm o | .vsllImm o | .vsrlImm o | .vsraImm o | .vminImm o | .vmaxImm o | .vaddsImm o | .vsubsImm o
  | .vextImm o => [o.d.val, o.a.val]
  | .vextr o | .vfclass o => [o.a.val]
  | .vins o => [o.d.val]
  | .vbcast o => [o.d.val]
  | .vfadd o | .vfsub o | .vfmul o | .vfdiv o | .vfmin o | .vfmax o => [o.d.val, o.a.val, o.b.val]
  | .vfsqrt o | .vfabs o | .vfneg o => [o.d.val, o.a.val]
  | .vfma o | .vfms o | .vfnma o => [o.d.val, o.a.val, o.b.val, o.c.val]
  | .vfsgn o => [o.d.val, o.a.val, o.b.val]
  | .vfaddScalar o | .vfsubScalar o | .vfmulScalar o | .vfdivScalar o | .vfminScalar o | .vfmaxScalar o => [o.d.val, o.a.val]
  | .vfmaScalar o | .vfmsScalar o | .vfnmaScalar o => [o.d.val, o.a.val, o.c.val]
  | .vfsgnScalar o => [o.d.val, o.a.val]
  | .vcmpEq o | .vcmpNe o | .vcmpLt o | .vcmpLe o | .vcmpGt o | .vcmpGe o | .vcmpUn o =>
      if o.xb then [o.a.val] else [o.a.val, o.b.val]
  | .vredoSum o | .vredtSum o | .vredMax o | .vredMin o | .vredAnd o | .vredOr o | .vredXor o => [o.a.val]
  | .vredsSum o | .vredsMean o => [o.a.val]
  | .vsscanSum o | .vsscanMax o | .vsredSum o | .vsredMax o => [o.d.val, o.a.val]
  | .vcvt o => if o.src.isBlock then [o.d.val, o.a.val, o.a.val + 1] else [o.d.val, o.a.val]
  | .vcvti o | .vicvt o => [o.d.val, o.a.val]
  | .vquant o => [o.d.val, o.d.val + 1, o.a.val]
  | .vld o | .vldff o => [o.d.val]
  | .vst o => [o.b.val]
  | .vlds o => [o.d.val]
  | .vsts o => [o.b.val]
  | .vgath o => [o.d.val, o.b.val]
  | .vscat o => [o.b.val, o.c.val]
  | .vldt o => groupFrom o.d 8
  | .mma o => o.a.val :: groupFrom o.b 8
  | .mmam o => [o.a.val]
  | .mmaBlock o => o.f.a.val :: groupFrom o.f.b 8 ++ scaleVecs o.s
  | .mmamBlock o => o.f.a.val :: scaleVecs o.s
  | .mmov o => groupFrom o.d (if o.ty = .f64 then 2 else 1)
  | .mmovWr o => groupFrom o.a (if o.ty = .f64 then 2 else 1)
  | .rgnKeep o => bitsSet (c.getX o.b)
  | .cpyv o => groupFrom o.b (fld (c.getX o.c).toNat 0 4)
  | _ => []

/-- The vector registers of core `c` that a `cpyv` has still to transfer (R431). (DEDUCED: log 65) -/
def State.interlocked (s : State) (c : Nat) : List Nat :=
  (s.copies.filter (fun x => x.core == c && !x.performed && !x.orphan)).flatMap (fun x => match x.regs with
    | some (first, nr, _) => ((List.range nr).drop (x.pos / 4)).map (first + ·)
    | none => [])

/-- An instruction names a vector register that a `cpyv` has still to transfer. -/
def State.interlocks (s : State) (c : Nat) (i : Instr) : Bool :=
  (vecRegs (s.core c) i).any (fun r => (s.interlocked c).contains r)

/-- Whether an instruction of core `c` may write: its guard holds, or it has none (R322). -/
def State.guardHolds (s : State) (c : Nat) (i : Instr) : Bool :=
  match (regUse i).gd with
  | some gd => (s.core c).active gd 0
  | none => true

/-- One bits for registers. -/
def regBits (l : List Reg) : BitVec 64 := l.foldl (fun m r => setBit m r.val true) 0

/-- One bits for predicate registers. -/
def predBits (l : List Nat) : BitVec 16 := l.foldl (fun m r => setBit m (r % 16) true) 0

/-- Record what an instruction exposes of its chunk's live-ins (R139); inside a chunk only. -/
def State.expose (s : State) (c : Nat) (i : Instr) : State :=
  let g := s.ring (c / 16)
  match g.chunkAt (slotOf c) with
  | none => s
  | some k =>
      let u := regUse i
      s.setRing (c / 16) (g.setChunk { k with
        exX := k.exX ||| (regBits u.rx &&& ~~~k.wrX), exP := k.exP ||| (predBits u.rp &&& ~~~k.wrP),
        exS := k.exS ||| (u.rs &&& ~~~k.wrS) })

/-- Once a chunk is not repairable, its contributions need not be held (R158). (DEDUCED: log 52) -/
def State.freeContribs (s : State) (c : Nat) : State :=
  match (s.ring (c / 16)).chunkAt (slotOf c) with
  | some k => if !k.repairable && !(s.core c).contribs.isEmpty then s.joinContribs c else s
  | none => s

/-- Record what an instruction wrote, where its guard held, and count it (R139, R260); the pad word is no instruction (R293). (DEDUCED: log 99) -/
def State.retire (s : State) (c : Nat) (i : Instr) (held : Bool) : State :=
  let s := s.freeContribs c
  let g := s.ring (c / 16)
  let k := s.core c
  if k.handler || k.wait != .none || i == .padWord then s
  else match g.chunkAt (slotOf c) with
    | some h =>
        let u : RegUse := if held then regUse i else {}
        s.setRing (c / 16) (g.setChunk { h with
          wrX := h.wrX ||| regBits u.wx, wrP := h.wrP ||| predBits u.wp, wrS := h.wrS ||| u.ws, deferred := false,
          count := h.count + 1 })
    | none =>
        (match g.thread with
         | some t => s.setRing (c / 16) { g with thread := some { t with pos := t.pos + 1 } }
         | none => s)

/-! ### Fetch -/

/-- What a fetch answers. -/
inductive Fetched where
  | bytes (bs : List Byte) (s : State)
  | flt (f : AccFault) (s : State)
  | wait (w : Wait) (s : State)
  | err (s : State)
  deriving DecidableEq, Repr

/-- The 128 bytes of a line as a fetch sees them. -/
def State.codeLine (s : State) (key ln : Nat) : List Byte :=
  (List.range 128).map (fun i => s.physByte (s.matK key) (128 * ln + i))

/-- A fetch that misses obtains the line's committed data from its home: another core's version or owned copy is downgraded as for
a load, and what the fetching core itself has committed or may commit is written back (R184, R222). -/
def State.codeMiss (s : State) (c ln : Nat) : State :=
  let holders := (s.cores.filter (fun e => match Table.get? e.2.l1 ln with
    | some l => !l.soft && (e.1 != c || l.st != .n)
    | none => false)).map (·.1)
  let s := holders.foldl (fun s o =>
    if o = c && (s.ring (c / 16)).isSpec (slotOf c) then s else s.dropLine o ln (some c) false) s
  let d := s.dir ln
  let s := match d.st with
    | .x o => if holders.contains o then s.putDir ln { d with st := .p [o] } else s
    | _ => s
  s.softBack c ln

/-- Fetch from pc to the end of its 32-byte block (R293), through the instruction cache (R222). (DEDUCED: log 95, 104) -/
def State.fetch (s : State) : Fetched :=
  let va := s.pc.toNat
  let c := s.cur
  match s.place s.who 4 va 4 with
  | (s, .error f) => .flt f s
  | (s, .ok (.mem a)) =>
      let tag := a.ln + 2 ^ 45 * a.key
      let cut (bs : List Byte) : List Byte := (bs.drop a.off).take (32 - va % 32)
      match Table.get? (s.core c).icache tag with
      | some bs => .bytes (cut bs) s
      | none =>
        match s.barred s.who a.ln with
        | some s => .flt { cause := 9, acc := 4, va := va, pa := a.pa } s
        | none =>
          match s.available a.tier (128 * a.ln) 128 false with
          | (some w, s) => .wait w s
          | (none, s) =>
              if s.poisonAt a.ln (wordsOf (a.off - a.off % 32) 32) then .err s
              else
                let s := s.codeMiss c a.ln
                let bs := s.codeLine a.key a.ln
                .bytes (cut bs) (s.setCore c { s.core c with icache := Table.put (s.core c).icache tag bs })
  | (s, .ok (.held w)) => .wait w s
  | (s, .ok _) => .flt { cause := 7, acc := 4, va := va } s

/-! ### Which core issues -/

/-- A core may issue: its handler runs, or its ring's thread executes on it, is not stopped for an interrupt (R124), and
nothing it waits for is outstanding. -/
def State.canIssue (s : State) (c : Nat) : Bool :=
  let k := s.core c
  let g := s.ring (c / 16)
  if k.withdrawn || k.asleep || k.asking then false
  else if k.handler then true
  else if g.thread.isNone || (s.core (coreAt (c / 16) g.head)).deaf || k.stopping.isSome then false
  else
    (match g.forked with
     | some _ => (match g.chunkAt (slotOf c) with
        | some h => !h.restart
        | none => false)
     | none => g.head == slotOf c) &&
    (match k.wait with
     | .ssync _ _ | .leave _ _ | .commit | .ended | .drain _ | .exit _ | .qpush _ | .qpop _ _ _ | .remote _ _ _ => false
     | .commitPoint | .deferred | .overflow => !g.isSpec (slotOf c)
     | _ => true)

/-- The core that issues next when no turn is due: free among those that can. (DESIGN CHOICE: log 6) -/
def State.pick (s : State) : Option Nat :=
  match (s.cores.map (·.1)).filter s.canIssue with
  | [] => none
  | [c] => some c
  | cs => cs[Config.freeNat s.free % cs.length]?

/-- Time passes (R444). (DESIGN CHOICE: log 5, 102) -/
def State.tick (s : State) : State := { s with cycle := s.cycle + Config.stepCycles s.free }

/-- Events that the module takes while its clocks are stopped or its power is off. (DESIGN CHOICE: log 6) -/
def alwaysOn (d : Dev) (i : Instr) : Bool :=
  match i with
  | .coldReset _ | .powerOff => true
  | .pldmMonitor | .pldmFwUpdate _ _ => d.powered
  | .tapBypass | .tapIdcode | .tapSamplePreload | .tapExtest => d.powered && !d.halted
  | _ => false

/-- Core `c` issues one instruction, `run` giving its meaning: it is fetched and decoded, an illegal word traps (R306), one that a `cpyv`
interlocks waits (R431), and what it exposes and writes is recorded. -/
def issueWith (run : Instr → State → Out) (c : Nat) (s : State) : Out :=
  if !s.canIssue c then .next { s with cur := c }
  else
    let s := { s with cur := c }.feedRing (c / 16)
    let s := s.setMe { s.me with
      wait := .none
      logged := if s.me.wait = .none then [] else s.me.logged
      vcmOn := s.me.wait != .none && s.me.vcmOn
      covered := if s.me.wait = .none then [] else s.me.covered }
    match s.fetch with
    | .flt f s => .next (faultTrap [f] s)
    | .wait w s => .next (s.waitFor w)
    | .err s => .next (s.detected c s.pc)
    | .bytes bs s =>
        match decode (s.pc.toNat % 32) bs with
        | .illegal sub => .next (illegal sub s)
        | .ok i _ =>
            if s.interlocks c i then .next (s.waitFor .cpyv)
            else match run i (s.expose c i) with
            | .next t => .next (t.retire c i (s.guardHolds c i))
            | .fault f => .fault f
            | .refused r => .refused r

/-- One step (`run` is the meaning of an instruction): the first turn due, else an instruction of a core that can issue,
else time alone. (DESIGN CHOICE: log 4) -/
def stepWith (run : Instr → State → Out) (s : State) : Out :=
  match s.turns with
  | t :: ts =>
      let s := { s.tick with turns := ts }
      (match t with
       | .core c => if s.dev.clocksOn then issueWith run c s else .next s
       | .event i => if s.dev.clocksOn || alwaysOn s.dev i then run i s else .next s
       | .deliver c => .next (if s.dev.clocksOn then deliverTurn { s with cur := c } else s))
  | [] =>
      if !s.dev.clocksOn then .fault .clocksStopped
      else match s.pick with
        | none => .next s.tick
        | some c => issueWith run c { s.tick with free := s.free + 1 }

/-! ### Placing an instruction -/

/-- Where `placeWord` puts the page tables. -/
def bootTables : Nat := 0x001000000000

/-- Virtual address of the page that `placeWord` maps. (PRESUMED: log 100) -/
def bootVa : Nat := 0x600000000000

/-- Entries that map the page at `bootVa`: readable, writable, executable, coherent, key 1. -/
def bootEntries : List (Nat × Nat) :=
  [(bootTables, bootTables + 0x2000 + 1), (bootTables + 0x2000 + 16 * 192, bootTables + 0x4000 + 1),
   (bootTables + 0x4000, bootTables + 0x6000 + 1), (bootTables + 0x6000, bootTables + 0x8000 + 1),
   (bootTables + 0x8000, bootTables + 0x10000 + 0x380 + 3), (bootTables + 0x8008, 0x10000)]

/-- Key 1 in the first entry of each membership table of `n` ports, as opening its job leaves it. -/
def bootMembers (n : Nat) : Table Word := (List.range n).map (fun p => (64 * p, wd (2 ^ 63 + 1)))

/-- A job, a running launch and its thread on core 0, with the page at `bootVa` mapped. (DESIGN CHOICE: log 7) -/
def bootThread (s : State) (pc : Nat) (m : List Host.Cell) : State :=
  let c := { s.core 0 with
    pc := wd pc, handler := false, wait := .none, withdrawn := false, asleep := false, tlb := [], icache := [] }
  let g := { s.ring 0 with
    key := 1, thread := some { job := 0, record := 0, ordinal := 0, key := 1 }, head := 0, forked := none, chunks := [] }
  let r := { s.recd 0 0 with st := .running }
  let j := { s.job 0 with st := .open_, key := 1, root := bootTables, recs := Table.put (s.job 0).recs 0 r }
  { s with
    fab := { s.fab with lmtN := bootMembers 256, lmtP := bootMembers 24 }
    turns := [.core 0], cur := 0, mem := m, lineKeys := [], poison := [], tlb2 := Table.erase s.tlb2 0, filter := [],
    cores := Table.put s.cores 0 c, rings := Table.put s.rings 0 g, jobs := Table.put s.jobs 0 j,
    dev := { s.dev with
      clocksOn := true, bstep := 5, keys := Table.put (Table.put s.dev.keys 0 0) 1 2 } }

/-- The state with an instruction stored where the next step fetches it. (DESIGN CHOICE: log 7) -/
def placeWord (s : State) (nbits w : Nat) : State :=
  let off := tableOff nbits w
  let m := bootEntries.foldl (fun m e => Memory.writeN m e.1 8 e.2) s.mem
  let m := Memory.writeN m (bootTables + 0x10000 + off) 16 (ofBytes (tableBytes nbits w))
  bootThread s (bootVa + off) m

end

end Sys2Proof.Machine
end

