-- ==== Sys2Proof/Machine/Step.lean ====
section
/-! DEFINITION. One step of the module, and placing an instruction where the next step fetches it. -/

namespace Sys2Proof.Machine

open Sys2Proof

noncomputable section

/-- One step: the first turn due, or an instruction of a core that can issue. (DESIGN CHOICE: log 4, 6) -/
def step (s : State) : Host.Outcome State Fault Refusal := stepWith exec s

/-- The state with an instruction of the opcode table's numbering stored where `step` fetches its next instruction. (DESIGN CHOICE: log 7) -/
def State.withFetchWord (s : State) (nbits w : Nat) : State := placeWord s nbits w

end

end Sys2Proof.Machine
end

