-- ==== Sys2Proof/Safety.lean ====
section
/-! DEFINITION. What a safe run is: its steps answer next states, and every state keeps the machine's invariant. -/

namespace Sys2Proof.Machine

open Sys2Proof

/-- The invariant that every step keeps: memory and scratchpads are one list in canonical form. -/
def State.Inv (s : State) : Prop := Memory.wf s.mem = true

/-- A state from which a number of steps meet neither a fault nor a refusal. -/
def State.safeFor : Nat → State → Prop
  | 0, _ => True
  | n + 1, s => ∃ t, step s = .next t ∧ t.safeFor n

/-- A safe state: no number of steps stops. -/
def State.Safe (s : State) : Prop := ∀ n, s.safeFor n

end Sys2Proof.Machine
end

