-- ==== Sys2Proof/Certificates/Slice0/Obligations.lean ====
section
/-! DEFINITION. The statements for the provers, with the words they are said in. -/

namespace Sys2Proof.Spec

noncomputable section

open Sys2Proof Sys2Proof.Machine

/-! ### What the statements are said in -/

/-- An instruction completes, and all that it changes is the executing core, which becomes `k`: no byte of memory, no other
core, no ring and nothing outside the cores changes. -/
def Becomes (i : Instr) (s : State) (k : Core) : Prop := exec i s = .next (s.setMe k)

/-- An instruction completes: `exec` answers a next state, of which `P` holds. -/
def Completes (i : Instr) (s : State) (P : State → Prop) : Prop := ∃ t, exec i s = .next t ∧ P t

/-- Every byte of memory and of every scratchpad reads as before. -/
def SameMemory (s t : State) : Prop := ∀ a, Memory.read t.mem a = Memory.read s.mem a

/-- Every byte outside `n` bytes at `a` reads as before. -/
def SameMemoryOutside (s t : State) (a n : Nat) : Prop :=
  ∀ b, b < a ∨ a + n ≤ b → Memory.read t.mem b = Memory.read s.mem b

/-- The executing core past an instruction of `len` bytes that has written `w` to the scalar register `d` (a write to `x0`
is discarded, R307) and set the flags `fl`; nothing else of it has changed. -/
def scalarDone (c : Core) (d : Reg) (w : Word) (fl : BitVec 5) (len : Nat) : Core :=
  { c.setX d w with pc := c.pc + BitVec.ofNat 64 len, fflags := c.fflags ||| fl }

/-- The executing core past an instruction that changed nothing else. -/
def passed (c : Core) (len : Nat) : Core := { c with pc := c.pc + BitVec.ofNat 64 len }

/-- The executing core moved to an address. -/
def jumped (c : Core) (a : Word) : Core := { c with pc := a }

/-- The thread is in thread mode, and its core holds no speculative chunk, so that a trap is taken at once. -/
def TrapsNow (s : State) : Prop := s.me.handler = false ∧ s.speculative = false

/-- The state after a trap has been taken: the executing core is in its resident handler, with the cause, the address and
the value of the trap saved, and nothing else has changed (R228, R232). `cause` holds the code, 256 times the sub-cause and
65536 times the fault cause; `tcause` gains its region bit where a region is open, and its deferral bit where the chunk had
deferred the trap (R156), which it then no longer has. -/
def trapped (s : State) (cause : Nat) (epc val : Word) : State :=
  (s.deferring false).setMe { s.me with
    tcause := BitVec.ofNat 64
      (cause + (if s.me.regions = [] then 0 else 2 ^ 61) + if s.wasDeferred = true then 2 ^ 62 else 0)
    tepc := epc, tval := val, handler := true, pc := s.me.tvec, wait := .none }

/-- The executing core's code is in no chunk of a forked loop. -/
def Unforked (s : State) : Prop := s.me.handler = true ∨ s.myRing.forked = none

/-! ### Scalar operands and results (R307, R323, R328) -/

/-- A source read as an integer of a type: its low bits, signed for the `.i` types. -/
def source (t : Ty) (x : Word) : Int := if t.isI then (x.setWidth t.width).toInt else (x.setWidth t.width).toNat

/-- Bits of a type's width as a scalar register holds them: sign-extended for the `.i` types, else zero-extended. -/
def widened (t : Ty) (v : BitVec t.width) : Word := if t.isI then v.signExtend 64 else v.setWidth 64

/-- A result cut to a type and written to a scalar register. -/
def result (t : Ty) (v : Int) : Word := widened t (BitVec.ofInt t.width v)

/-- Smallest and largest value of an integer type (R328). -/
def lowest (t : Ty) : Int := if t.isI then -(2 ^ (t.width - 1) : Nat) else 0
def highest (t : Ty) : Int := if t.isI then (2 ^ (t.width - 1) : Nat) - 1 else (2 ^ t.width : Nat) - 1

/-- A sum clamped to the range of a type, with the flag that clamping sets (R271). -/
def saturated (t : Ty) (v : Int) : Int × BitVec 5 :=
  if v < lowest t then (lowest t, 4) else if highest t < v then (highest t, 4) else (v, 0)

/-- Quotient and remainder with the two cases of R272: flag 2 is dvz, flag 4 ovf. -/
def quotient (t : Ty) (a b : Int) : Int × BitVec 5 :=
  if b = 0 then (-1, 2) else if t.isI ∧ a = lowest t ∧ b = -1 then (a, 4) else (a.tdiv b, 0)
def remainder (t : Ty) (a b : Int) : Int × BitVec 5 :=
  if b = 0 then (a, 2) else if t.isI ∧ a = lowest t ∧ b = -1 then (0, 4) else (a.tmod b, 0)

/-- The amount a shift uses: B mod w (R327). -/
def amount (t : Ty) (b : Int) : Nat := (b % (t.width : Int)).toNat

/-- A source as a bit pattern of its width. -/
def pattern (t : Ty) (a : Int) : BitVec t.width := BitVec.ofInt t.width a

/-- A function of two sources: before writing, and the flags. -/
abbrev Fn := Ty → Int → Int → Int × BitVec 5

/-- The functions that R327 and R374 share, by name. -/
def sumFn : Fn := fun _ a b => (a + b, 0)
def differenceFn : Fn := fun _ a b => (a - b, 0)
def productFn : Fn := fun _ a b => (a * b, 0)
def highProductFn : Fn := fun t a b => ((a * b).fdiv (2 ^ t.width : Nat), 0)
def andFn : Fn := fun t a b => ((pattern t a &&& pattern t b).toNat, 0)
def orFn : Fn := fun t a b => ((pattern t a ||| pattern t b).toNat, 0)
def xorFn : Fn := fun t a b => ((pattern t a ^^^ pattern t b).toNat, 0)
def andNotFn : Fn := fun t a b => ((pattern t a &&& ~~~pattern t b).toNat, 0)
def shiftLeftFn : Fn := fun t a b => (a * (2 ^ amount t b : Nat), 0)
def shiftRightFn : Fn := fun t a b => ((pattern t a >>> amount t b).toNat, 0)
def shiftArithFn : Fn := fun t a b => ((pattern t a).toInt.fdiv (2 ^ amount t b : Nat), 0)
def minFn : Fn := fun _ a b => (min a b, 0)
def maxFn : Fn := fun _ a b => (max a b, 0)
def clampedSumFn : Fn := fun t a b => saturated t (a + b)
def clampedDifferenceFn : Fn := fun t a b => saturated t (a - b)

/-- The table of R327 for the functions with two sources and a result of the type. -/
def integerRows : List ((XXX → Instr) × Fn) :=
  [(.add, sumFn), (.sub, differenceFn), (.mul, productFn), (.mulh, highProductFn), (.div, quotient), (.rem, remainder),
   (.and, andFn), (.or, orFn), (.xor, xorFn), (.andn, andNotFn), (.sll, shiftLeftFn), (.srl, shiftRightFn),
   (.sra, shiftArithFn), (.rol, fun t a b => (((pattern t a).rotateLeft (amount t b)).toNat, 0)), (.min, minFn),
   (.max, maxFn), (.adds, clampedSumFn), (.subs, clampedDifferenceFn)]

/-- The comparisons of R327. -/
def compareRows : List ((XXX → Instr) × (Int → Int → Bool)) :=
  [(.seq, fun a b => a == b), (.slt, fun a b => decide (a < b)), (.sle, fun a b => decide (a ≤ b))]

/-- Zero bits above the highest one bit of a `w`-bit value, zero bits below its lowest one bit, and its one bits. -/
def zerosAbove (w : Nat) (x : Word) : Nat := ((List.range w).reverse.takeWhile (fun i => !x.getLsbD i)).length
def zerosBelow (w : Nat) (x : Word) : Nat := ((List.range w).takeWhile (fun i => !x.getLsbD i)).length
def onesIn (w : Nat) (x : Word) : Nat := ((List.range w).filter (fun i => x.getLsbD i)).length

/-- The counts of R327. -/
def countRows : List ((XX → Instr) × (Nat → Word → Nat)) :=
  [(.clz, zerosAbove), (.ctz, zerosBelow), (.popc, onesIn)]

/-- The functions of R329 on x(a) and the sign-extended immediate. -/
def immediateRows : List ((XXI → Instr) × (Word → Word → Word)) :=
  [(.addi, fun a i => a + i), (.andi, fun a i => a &&& i), (.ori, fun a i => a ||| i), (.xori, fun a i => a ^^^ i),
   (.slli, fun a i => a <<< (i.toNat % 64)), (.srli, fun a i => a >>> (i.toNat % 64)),
   (.srai, fun a i => a.sshiftRight (i.toNat % 64)), (.slti, fun a i => if a.toInt < i.toInt then 1 else 0),
   (.sltui, fun a i => if a.toNat < i.toNat then 1 else 0),
   (.lih, fun a i => (i <<< 32) ||| (a &&& 0xFFFFFFFF))]

/-! ### Floating point -/

/-- The rounding mode a code stands for where `dyn` is the dynamic mode: code 6 is the dynamic mode, and stochastic rounding
outside narrowing conversions is to nearest even (R273). -/
def roundingMode (dyn : Nat) (rm : Fin 8) (narrow : Bool) : Nat :=
  let m := if rm.val = 6 then dyn else rm.val
  if m = 5 ∧ narrow = false then 0 else m

/-- What a scalar floating-point instruction rounds with: it never flushes subnormals (R333). -/
def scalarRounding (c : Core) (t : Ty) (rm : Fin 8) : FEnv :=
  { f := fmtOf t, mode := roundingMode c.frm rm false, fz := false }

/-- The low `w` bits of a scalar register. -/
def low (s : State) (r : Reg) (w : Nat) : Nat := ((s.x r).setWidth w).toNat

/-- The functions of R332 with two sources and a result of the type. -/
def floatRows : List ((FXXX → Instr) × (FEnv → Nat → Nat → FRes)) :=
  [(.fadd, fpAdd), (.fsub, fpSub), (.fmul, fpMul), (.fdiv, fpDiv), (.fmin, fpMinMax false), (.fmax, fpMinMax true)]

/-- The comparisons of R336. -/
def floatCompareRows : List ((FXXX → Instr) × Cmp) := [(.feq, .eq), (.flt, .lt), (.fle, .le)]

/-! ### Control transfer -/

/-- The branches of R339 with two register operands, and when each is taken. -/
def branchRows : List ((BrCmp → Instr) × (Word → Word → Bool)) :=
  [(.beq, fun a b => a == b), (.bne, fun a b => a != b), (.blt, fun a b => decide (a.toInt < b.toInt)),
   (.bge, fun a b => decide (b.toInt ≤ a.toInt)), (.bltu, fun a b => decide (a.toNat < b.toNat)),
   (.bgeu, fun a b => decide (b.toNat ≤ a.toNat))]

/-- The address a word offset leads to. -/
def target (s : State) (off : BitVec 32) : Word := s.me.pc + off.signExtend 64 * 4

/-- An address inside the body of a forked loop: after the 12 bytes of its `fork`, up to its `chk` (R132). -/
def InBody (g : Forked) (a : Word) : Prop := (g.f + 12).toNat ≤ a.toNat ∧ a.toNat ≤ g.e.toNat

/-- The state in which the executing core's chunk has a call depth. -/
def atDepth (s : State) (k : Chunk) (d : Nat) : State := s.setMyRing (s.myRing.setChunk { k with depth := d })

/-- A chunk that leaves its loop stalls at the instruction; when it is the oldest its leaving follows at once (R144). -/
def leaving (s : State) (tgt : Word) (link : Option (Reg × Word)) : State :=
  let t := s.setMe { s.me with wait := .leave tgt link }
  if s.speculative then t else t.after (.loopExit (Fin.ofNat 4096 s.cur))

/-! ### Memory accesses -/

/-- The address of a scalar access: x(a) plus the sign-extended immediate, modulo 2^64 (R342). -/
def address (s : State) (a : Reg) (imm : BitVec 32) : Nat := (s.x a + imm.signExtend 64).toNat

/-- `n` bytes at a window address of the executing core's own scratchpad (R62), naturally aligned, in the part of it that
a thread may write, as a thread outside forked loops and regions sees them. -/
def OnOwnPad (s : State) (va n : Nat) : Prop :=
  s.cur < 4096 ∧ va / 2 ^ 32 = 0xFE * 2 ^ 24 + s.cur ∧ n ∈ [1, 2, 4, 8, 16] ∧ va % n = 0 ∧ va % 2 ^ 32 + n ≤ 0x40000 ∧
    s.me.handler = false ∧ s.me.regions = [] ∧ s.myRing.chunks = []

/-- The state with `n` bytes stored. -/
def stored (s : State) (va n v : Nat) : State := { s with mem := Memory.writeN s.mem va n v }

/-- `n` bytes were stored at an address and the executing core went on past `len` bytes; nothing else changed, so every
byte outside them reads as before. -/
def Stores (i : Instr) (s : State) (va n v len : Nat) : Prop :=
  exec i s = .next ((stored s va n v).setMe (passed s.me len)) ∧
    (Memory.wf s.mem = true → ∀ t, exec i s = .next t →
      SameMemoryOutside s t va n ∧ Memory.readN t.mem va n = v % 256 ^ n)

/-- Nothing stands between an access of the executing core and its performance: no io page, region, chunk or sticky
fault, and an outstanding-request entry is free (R65). -/
def Unhindered (s : State) (va n : Nat) : Prop :=
  s.me.oreqs.length < 64 ∧ s.touchesIo s.who va n = false ∧ s.inRegion = false ∧ s.myChunk = none ∧ s.me.tstk = 0

/-- An instruction ends as its access does: it is done, or a record is written and the trap of the fault's cause taken
(R178, R229, R230), or it waits, its pc as it was. -/
def EndsAs (i : Instr) (s : State) (r : Res) (done : Nat → State → State) : Prop :=
  (∀ v t, r = .ok v t → exec i s = .next (done v t)) ∧
  (∀ f t, r = .flt f t → TrapsNow t → f.cause < 256 →
    exec i s = .next
      (trapped (t.recordMe f) (trapCode f.acc f.cause + 65536 * f.cause) t.me.pc (BitVec.ofNat 64 f.va))) ∧
  (∀ w t, r = .wait w t → exec i s = .next (t.setMe { t.me with wait := w }))

/-- An integer a bit pattern stands for in a type. -/
def valueIn (t : Ty) (x : Nat) : Int := source t (BitVec.ofNat 64 x)

/-- The atomics of R351 with one operand: the new value from the old one and B, before it is cut to the width. -/
def atomicRows : List ((AmoF → Instr) × (Ty → Nat → Nat → Nat)) :=
  [(.amoadd, fun _ x y => x + y), (.amoand, fun _ x y => x &&& y), (.amoor, fun _ x y => x ||| y),
   (.amoxor, fun _ x y => x ^^^ y), (.amoswap, fun _ _ y => y),
   (.amomin, fun t x y => if valueIn t x ≤ valueIn t y then x else y),
   (.amomax, fun t x y => if valueIn t x ≤ valueIn t y then y else x),
   (.amofadd, fun t => combine (if t = .f64 then 0 else 1)),
   (.amofmax, fun t => combine (if t = .f64 then 4 else 5))]

/-- The operation that a packet's head names for each of them, as R426 numbers the operations (R44). -/
def atomicCodes : List Nat := [0, 1, 2, 3, 4, 6, 7, 0, 7]

/-! ### System registers -/

/-- The number of one bits. -/
def ones (b : BitVec 8) : Nat := ((List.range 8).filter (fun i => b.getLsbD i)).length

/-- `specst` (R159). -/
def speculationWord (s : State) : Word :=
  let g := s.myRing
  BitVec.ofNat 64 (g.nsq * 2 ^ 48 + g.nov * 2 ^ 32 + g.head.val * 2 ^ 20 + (if g.ns then 4 else 0) +
    (if s.me.regions = [] then 0 else 2) +
    match g.forked with
    | some f => g.chunks.length * 2 ^ 24 + (f.w - 1) * 2 ^ 16 + 1
    | none => 0)

/-- The open regions that are unrecoverable, a bit for each depth; the innermost stands first in the list. -/
def unrecoverable : List Region → Nat
  | [] => 0
  | g :: gs => (if g.unrec then 2 ^ gs.length else 0) + unrecoverable gs

/-- `rgnst` (R254). -/
def regionWord (c : Core) : Word :=
  BitVec.ofNat 64 (c.regions.length * 2 ^ 61 + unrecoverable c.regions * 2 ^ 57 + c.logTail * 2 ^ 44 +
    (match c.regions with
     | g :: _ => g.retry * 2 ^ 36 + g.limit * 2 ^ 28
     | [] => 0) + (if c.logOvf then 1 else 0))

/-- A word of a register of 512 bits. -/
def wordAt (b : BitVec 512) (k : Nat) : Word := (b >>> (64 * k)).setWidth 64

/-- A register of 512 bits with a word replaced. -/
def withWord (b : BitVec 512) (k : Nat) (w : Word) : BitVec 512 :=
  (b &&& ~~~(((-1 : Word).setWidth 512) <<< (64 * k))) ||| ((w.setWidth 512) <<< (64 * k))

/-- The registers whose reads a launch may capture (R260), by index, and the value of each (R197, R310). -/
def capturedRows : List (Nat × (State → Word)) :=
  (List.finRange 4).map (fun n => (0x020 + n.val, fun s =>
    let b := s.me.rb.get n
    BitVec.ofNat 64 (b.tail % 2 ^ 19 * 2 ^ 45 + b.head % 2 ^ 19 * 2 ^ 26 + b.lsz % 8 * 2 ^ 20 + b.base % 64 * 2 ^ 12 +
      if b.en then 1 else 0))) ++
  [(0x030, fun s => BitVec.ofNat 64 s.cycle), (0x031, fun s => BitVec.ofNat 64 (s.cycle * 5 / 6))]

/-- An index that no system register has (R310). -/
def NoRegister (i : Nat) : Prop :=
  i = 0x007 ∨ (0x013 ≤ i ∧ i ≤ 0x017) ∨ (0x01D ≤ i ∧ i ≤ 0x01F) ∨ i = 0x027 ∨ (0x02C ≤ i ∧ i ≤ 0x02F) ∨
    (0x033 ≤ i ∧ i ≤ 0x037) ∨ (0x042 ≤ i ∧ i ≤ 0x07F) ∨ 0x085 ≤ i

/-- System registers that a thread reads without capture, by index, and the value of each (R310, R311): outside forked
loops. -/
def readRows : List (Nat × (State → Word)) :=
  [(0x000, fun s => BitVec.ofNat 64 s.me.vl), (0x001, fun s => BitVec.ofNat 64 (s.me.lanes * 64 / s.me.ew)),
   (0x002, fun s => s.me.vtype), (0x003, fun s => s.me.fflags.setWidth 64), (0x004, fun s => BitVec.ofNat 64 s.me.frm),
   (0x005, fun s => s.me.tren.setWidth 64), (0x006, fun s => s.me.srseed),
   (0x011, fun s => BitVec.ofNat 64 (s.me.tshape.cols * 65536 + s.me.tshape.rows)),
   (0x018, fun s => s.myRing.chunkCtr.setWidth 64), (0x01C, fun s => s.myRing.smev), (0x024, fun s => s.me.rbovf),
   (0x025, fun s => s.me.cpmask.setWidth 64),
   (0x026, fun s => BitVec.ofNat 64 (s.me.oreqs.filter (fun e => e.1 < 64)).length),
   (0x010, fun s => BitVec.ofNat 64 (s.me.mreq * 2 ^ 20 + s.me.mslabs.toNat * 2 ^ 8 + ones s.me.mslabs)),
   (0x012, fun s => BitVec.ofNat 64 ((if s.me.tpAct then 2 ^ 15 else 0) + s.me.tpProg)),
   (0x019, fun s => speculationWord s), (0x01A, fun s => regionWord s.me),
   (0x01B, fun s => BitVec.ofNat 64 (s.me.logBase * 2 ^ 16 + if s.me.logEn then 1 else 0)),
   (0x028, fun s => s.me.utvec), (0x029, fun s => s.me.ucause), (0x02A, fun s => s.me.uepc), (0x02B, fun s => s.me.uval),
   (0x032, fun s => BitVec.ofNat 64 (s.cur % 4096)), (0x040, fun s => s.me.tstk.setWidth 64), (0x041, fun s => s.me.lret)]

/-- The handler-only registers (R227). -/
def handlerRows : List (Nat × (State → Word)) :=
  [(0x080, fun s => s.me.tvec), (0x081, fun s => s.me.tcause), (0x082, fun s => s.me.tepc), (0x083, fun s => s.me.tval),
   (0x084, fun s => s.me.ctxbase)]

/-- The writes of `sysw` that store fields of the executing core: the instruction for a source register and a guard, and
the core after the write (R274, R311, R360). A rounding mode of 6 or 7 leaves `frm`. -/
def writeRows : List ((Reg → Guard → Instr) × (Core → Word → Core)) :=
  [(fun a gd => .sysw { a := a, idx := 0x003, gd := gd }, fun c w => { c with fflags := w.setWidth 5 }),
   (fun a gd => .sysw { a := a, idx := 0x004, gd := gd },
      fun c w => { c with frm := if w.toNat % 8 < 6 then w.toNat % 8 else c.frm }),
   (fun a gd => .sysw { a := a, idx := 0x005, gd := gd }, fun c w => { c with tren := w.setWidth 5 }),
   (fun a gd => .sysw { a := a, idx := 0x024, gd := gd }, fun c w => { c with rbovf := w }),
   (fun a gd => .sysw { a := a, idx := 0x025, gd := gd }, fun c w => { c with cpmask := w.setWidth 32 }),
   (fun a gd => .sysw { a := a, idx := 0x028, gd := gd }, fun c w => { c with utvec := w }),
   (fun a gd => .sysw { a := a, idx := 0x029, gd := gd }, fun c w => { c with ucause := w &&& 0xF000000000FFFFFF }),
   (fun a gd => .sysw { a := a, idx := 0x02A, gd := gd }, fun c w => { c with uepc := w }),
   (fun a gd => .sysw { a := a, idx := 0x02B, gd := gd }, fun c w => { c with uval := w }),
   (fun a gd => .sysw { a := a, idx := 0x012, gd := gd },
      fun c w => { c with tpAct := w.getLsbD 15, tpProg := w.toNat % 128 }),
   (fun a gd => .sysw { a := a, idx := 0x01B, gd := gd },
      fun c w => { c with logBase := w.toNat / 65536 % 4, logEn := w.getLsbD 0 }),
   (fun a gd => .syswVl { a := a, gd := gd }, fun c w =>
      let mvl := c.working * 64 / c.ew
      { c with lanes := c.working, vl := min w.toNat mvl }),
   (fun a gd => .syswTstk { a := a, gd := gd }, fun c w => if c.handler then { c with tstk := w.setWidth 8 &&& 0xF7 } else c)]

/-- The writes of `sysw` that only the handler may make, by index (R227). -/
def handlerWriteRows : List (Nat × (Core → Word → Core)) :=
  [(0x080, fun c w => { c with tvec := w }), (0x081, fun c _ => c), (0x082, fun c w => { c with tepc := w }),
   (0x083, fun c w => { c with tval := w }), (0x084, fun c w => { c with ctxbase := w &&& 0x01FFFFFFFFFE0000 })]

/-- The writes of `sysw` to a read-only register: nothing is written (R311). -/
def readOnlyIndices : List Nat := [0x001, 0x010, 0x018, 0x01A, 0x026, 0x030, 0x031, 0x032, 0x038, 0x03F, 0x041]

/-- No region, sticky fault or chunk stands between the executing core and a synchronising instruction. -/
def Synchronises (s : State) : Prop := s.inRegion = false ∧ s.me.tstk = 0 ∧ s.myChunk = none

/-! ### Vectors -/

/-- Element `i` of width `w` of a vector register (R308). -/
def element (v : BitVec 4096) (w i : Nat) : Nat := (v.extractLsb' (w * i) w).toNat

/-- The rounding mode and flushing of a vector instruction (R367, R376). -/
def vectorRounding (c : Core) (t : Ty) (rm : Fin 8) : FEnv :=
  { f := fmtOf t, mode := roundingMode (c.vtype.toNat % 8) rm false, fz := c.vtype.getLsbD 8 }

/-- The flags that the active elements below `vl` set together. -/
def flagsOver (c : Core) (gd : Guard) (g : Nat → BitVec 5) : BitVec 5 :=
  ((List.range c.vl).filter (fun i => c.active gd i)).foldl (fun a i => a ||| g i) 0

/-- `v'` is `v` with every active element below `vl` replaced, every other bit as it was (R363, R365). -/
def Written (c : Core) (gd : Guard) (w : Nat) (v v' : BitVec 4096) (f : Nat → Nat) : Prop :=
  (∀ i < c.vl, w * i + w ≤ 4096 → c.active gd i = true → element v' w i = f i % 2 ^ w) ∧
  (∀ b < 4096, (∀ i < c.vl, c.active gd i = true → ¬ (w * i ≤ b ∧ b < w * i + w)) → v'.getLsbD b = v.getLsbD b)

/-- An elementwise instruction whose active elements set no enabled flag writes them into v(d), adds their flags to
`fflags` and goes on; nothing else changes. -/
def ElementsWritten (i : Instr) (s : State) (d : Reg) (w len : Nat) (gd : Guard) (f : Nat → FRes) : Prop :=
  let fl := flagsOver s.me gd (fun j => (f j).fl)
  fl &&& s.me.tren = 0 →
    ∃ v, Written s.me gd w (s.me.v.get d) v (fun j => (f j).bits) ∧
      Becomes i s { s.me with
        v := s.me.v.set d.val v d.isLt, pc := s.me.pc + BitVec.ofNat 64 len, fflags := s.me.fflags ||| fl }

/-- An instruction that writes the active bits below `vl` of the predicate register d: the other bits are as they were,
and a write to `p0` is discarded (R307, R363). -/
def BitsWritten (i : Instr) (s : State) (d : Fin 16) (gd : Guard) (f : Nat → Bool) (g : Nat → BitVec 5) : Prop :=
  let fl := flagsOver s.me gd g
  fl &&& s.me.tren = 0 →
    ∃ p : BitVec 512,
      (∀ j < 512, p.getLsbD j = if j < s.me.vl ∧ s.me.active gd j = true then f j else (s.me.getP d).getLsbD j) ∧
      Becomes i s { s.me.setP d p with pc := s.me.pc + 8, fflags := s.me.fflags ||| fl }

/-- The result and flags of an integer function on elements. -/
def elementResult (f : Fn) (t : Ty) (a b : Int) : FRes :=
  { bits := (BitVec.ofInt t.width (f t a b).1).toNat, fl := (f t a b).2 }

/-- The low bits of A that `vext` keeps, all of them for 0. -/
def fieldFn : Fn := fun t a b =>
  (if amount t b = 0 then a
   else if t.isI then (BitVec.ofInt (amount t b) a).toInt else (BitVec.ofInt (amount t b) a).toNat, 0)

/-- The table of R374 for two sources: with a vector, a scalar and an immediate B. -/
def vectorIntegerRows : List ((VVV → Instr) × (VVX → Instr) × (VVI → Instr) × Fn) :=
  [(.vadd, .vaddScalar, .vaddImm, sumFn), (.vsub, .vsubScalar, .vsubImm, differenceFn),
   (.vmul, .vmulScalar, .vmulImm, productFn), (.vmulh, .vmulhScalar, .vmulhImm, highProductFn),
   (.vdiv, .vdivScalar, .vdivImm, quotient), (.vrem, .vremScalar, .vremImm, remainder),
   (.vand, .vandScalar, .vandImm, andFn), (.vor, .vorScalar, .vorImm, orFn), (.vxor, .vxorScalar, .vxorImm, xorFn),
   (.vandn, .vandnScalar, .vandnImm, andNotFn), (.vsll, .vsllScalar, .vsllImm, shiftLeftFn),
   (.vsrl, .vsrlScalar, .vsrlImm, shiftRightFn), (.vsra, .vsraScalar, .vsraImm, shiftArithFn),
   (.vmin, .vminScalar, .vminImm, minFn), (.vmax, .vmaxScalar, .vmaxImm, maxFn),
   (.vadds, .vaddsScalar, .vaddsImm, clampedSumFn), (.vsubs, .vsubsScalar, .vsubsImm, clampedDifferenceFn),
   (.vext, .vextScalar, .vextImm, fieldFn)]

/-- The functions of R374 with one source. -/
def vectorUnaryRows : List ((VV → Instr) × Fn) :=
  [(.vabs, fun _ a _ => ((a.natAbs : Int), 0)), (.vneg, fun _ a _ => (-a, 0)), (.vmov, fun _ a _ => (a, 0))]

/-- The functions of R376 with two sources, with a vector and with a scalar B. -/
def vectorFloatRows : List ((FVVV → Instr) × (FVVX → Instr) × (FEnv → Nat → Nat → FRes)) :=
  [(.vfadd, .vfaddScalar, fpAdd), (.vfsub, .vfsubScalar, fpSub), (.vfmul, .vfmulScalar, fpMul),
   (.vfdiv, .vfdivScalar, fpDiv), (.vfmin, .vfminScalar, fpMinMax false), (.vfmax, .vfmaxScalar, fpMinMax true)]

/-- The fused functions: whether the product and the addend are negated. -/
def vectorFusedRows : List ((FVVVV → Instr) × (FVVXV → Instr) × Bool × Bool) :=
  [(.vfma, .vfmaScalar, false, false), (.vfms, .vfmsScalar, false, true), (.vfnma, .vfnmaScalar, true, false)]

/-- The comparisons of R377. -/
def vectorCompareRows : List ((VCmp → Instr) × Cmp) :=
  [(.vcmpEq, .eq), (.vcmpNe, .ne), (.vcmpLt, .lt), (.vcmpLe, .le), (.vcmpGt, .gt), (.vcmpGe, .ge), (.vcmpUn, .un)]

/-- A comparison of two integers; none is unordered. -/
def compareInts : Cmp → Int → Int → Bool
  | .eq, a, b => a == b
  | .ne, a, b => a != b
  | .lt, a, b => decide (a < b)
  | .le, a, b => decide (a ≤ b)
  | .gt, a, b => decide (b < a)
  | .ge, a, b => decide (b ≤ a)
  | .un, _, _ => false

/-- The active elements below `vl`, ascending. -/
def activeList (c : Core) (gd : Guard) : List Nat := (List.range c.vl).filter (fun i => c.active gd i)

/-- The tree of R290 over 2^k leaves: a step on its halves. -/
def treeOver (step : FRes → FRes → FRes) : Nat → (Nat → FRes) → FRes
  | 0, leaf => leaf 0
  | k + 1, leaf => step (treeOver step k leaf) (treeOver step k (fun i => leaf (i + 2 ^ k)))

/-- One rounded step of a reduction, which gathers the flags of what it combines. -/
def gatherStep (e : RedEnv) (a b : FRes) : FRes :=
  let r := e.step a.bits b.bits
  { bits := r.bits, fl := a.fl ||| b.fl ||| r.fl }

/-- The reductions in tree form (R382). -/
def treeRows : List ((VRed → Instr) × RedOp) :=
  [(.vredtSum, .sum), (.vredMax, .max), (.vredMin, .min), (.vredAnd, .and), (.vredOr, .or), (.vredXor, .xor)]

/-- The address of element `i` of a strided access: base plus `i` steps, modulo 2^64 (R390). -/
def stridedAddress (base step : Word) (i : Nat) : Nat := (base + step * BitVec.ofNat 64 i).toNat

/-- The address of element `i` of an indexed access: the base plus a signed element (R390). -/
def indexedAddress (s : State) (a offs : Reg) (w i : Nat) : Nat :=
  (s.x a + ((s.me.v.get offs).extractLsb' (w * i) w).signExtend 64).toNat

/-- A vector load of the own scratchpad: each active element takes the bytes at its address. -/
def LoadsElements (i : Instr) (s : State) (d : Reg) (w len : Nat) (gd : Guard) (va : Nat → Nat) : Prop :=
  w = s.me.ew → 8 ≤ w → s.me.vcm = 0 → (∀ j < s.me.vl, s.me.active gd j = true → OnOwnPad s (va j) (w / 8)) →
    ElementsWritten i s d w len gd (fun j => { bits := Memory.readN s.mem (va j) (w / 8), fl := 0 })

/-- The state with `n` bytes stored for each of some elements, in their order. -/
def storedAll (s : State) (is : List Nat) (n : Nat) (va v : Nat → Nat) : State :=
  let m := is.foldl (fun m j => Memory.writeN m (va j) n (v j)) s.mem
  { s with mem := m }

/-- A vector store to the own scratchpad: the active elements are stored in ascending order, and every byte outside them
reads as before. -/
def StoresElements (i : Instr) (s : State) (v : Reg) (w len : Nat) (gd : Guard) (va : Nat → Nat) : Prop :=
  w = s.me.ew → 8 ≤ w → s.me.vcm = 0 → (∀ j < s.me.vl, s.me.active gd j = true → OnOwnPad s (va j) (w / 8)) →
    exec i s = .next ((storedAll s (activeList s.me gd) (w / 8) va (fun j => element (s.me.v.get v) w j)).setMe
      (passed s.me len)) ∧
    (Memory.wf s.mem = true → ∀ t, exec i s = .next t → ∀ b,
      (∀ j < s.me.vl, s.me.active gd j = true → b < va j ∨ va j + w / 8 ≤ b) → Memory.read t.mem b = Memory.read s.mem b)

/-! ### Tiles -/

/-- Container (r, j) of a tile (R309). -/
def container (t : BitVec 131072) (r j : Nat) : Nat := (t.extractLsb' (64 * (128 * r + j)) 64).toNat

/-- Row r of C is active (R400). -/
def RowActive (c : Core) (gd : Guard) (r : Nat) : Prop := r < c.tshape.rows ∧ c.active gd r = true

/-- `tshape` holds legal values (R400). -/
def ShapeLegal (c : Core) : Prop := c.tshape.rows ≤ 16 ∧ c.tshape.cols ≤ 128

/-- A core with no restartable instruction in progress: `tprog` clear and the staging buffer discarded (R239, R412). -/
def unstaged (c : Core) : Core := { c with tpAct := false, tpProg := 0, staging := 0 }

/-- C after a multiply–accumulate: every column below `cols` of every active row holds its sum rounded once, every other
container is as it was (R289, R405). -/
def Accumulates (i : Instr) (s : State) (d : Fin 4) (wide : Bool) (rm : Fin 8) (gd : Guard) (len : Nat) (m : MmaIn) :
    Prop :=
  let c := s.me
  let e := vectorRounding c (if m.ty = .f64 ∨ wide = true then .f64 else .f32) rm
  let t := c.t.get d
  let cell (r j : Nat) : FRes :=
    m.cell e (container t r j % 2 ^ e.f.w) ((List.range m.k).map (fun k => m.elemA r k)) j
  let fl := ((List.range 16).filter (fun r => r < c.tshape.rows && c.active gd r)).foldl
    (fun a r => (List.range c.tshape.cols).foldl (fun a j => a ||| (cell r j).fl) a) 0
  ShapeLegal c → fl &&& c.tren = 0 →
    ∃ t' : BitVec 131072,
      (∀ r < 16, ∀ j < 128,
        (RowActive c gd r ∧ j < c.tshape.cols → container t' r j = (cell r j).bits % 2 ^ 64) ∧
        (¬ (RowActive c gd r ∧ j < c.tshape.cols) → container t' r j = container t r j)) ∧
      Becomes i s { unstaged c with
        t := c.t.set d.val t' d.isLt, fflags := c.fflags ||| fl, pc := c.pc + BitVec.ofNat 64 len }

/-- `n` bytes at a window address of the own scratchpad that begin and end at multiples of 16 bytes. -/
def SpanOnPad (s : State) (va n : Nat) : Prop :=
  s.cur < 4096 ∧ va / 2 ^ 32 = 0xFE * 2 ^ 24 + s.cur ∧ va % 16 = 0 ∧ n % 16 = 0 ∧ va % 2 ^ 32 + n ≤ 0x40000 ∧
    s.me.handler = false ∧ s.me.regions = [] ∧ s.myRing.chunks = []

/-- The slabs that the three other cores of the executing core's quad hold (R401, R402). -/
def slabsElsewhere (s : State) : BitVec 8 :=
  ((List.range 4).filter (fun i => 4 * (s.cur / 4) + i != s.cur)).foldl
    (fun m i => m ||| (s.core (4 * (s.cur / 4) + i)).mslabs) 0

/-! ### Loops, regions, messages, copies and queues -/

/-- A thread in no forked loop and no region, with no sticky fault and no dirty soft line: nothing stands in the way of an
instruction that is a commit point, a release or an acquire. -/
def Plain (s : State) : Prop :=
  s.me.handler = false ∧ s.me.regions = [] ∧ s.myChunk = none ∧ s.myRing.forked = none ∧ s.me.tstk = 0 ∧
    s.me.softDirty = false

/-- An acquire has dropped the core's soft lines (R188). -/
def refreshed (c : Core) : Core := { c with l1 := c.l1.filter (fun e => !e.2.soft) }

/-- The launch of the executing core's thread neither captures nor replays. -/
def Uncaptured (s : State) : Prop := ∀ t, s.myRing.thread = some t → (s.recd t.job t.record).cap.mode = 0

/-- A `fork`'s packed immediate (R414): iterations of a chunk, the distance to its `chk` in words, requested width. -/
def chunkSize (o : ForkF) : Nat := o.imm.toNat / 2 ^ 20 % 4096
def latchOffset (o : ForkF) : Nat := o.imm.toNat % 65536
def forkWidth (o : ForkF) : Nat := o.imm.toNat / 65536 % 16 + 1

/-- Chunks that the iterations make, and the width in effect (R132). -/
def chunkCount (s : State) (o : ForkF) : Nat := ((s.x o.a).toNat + chunkSize o - 1) / chunkSize o
def effectiveWidth (s : State) (o : ForkF) : Nat := min (forkWidth o) (min (chunkCount s o) 16)

/-- The conditions under which a `fork` runs unforked (R133). -/
def RunsAlone (s : State) (o : ForkF) : Prop :=
  s.myRing.forked ≠ none ∨ s.me.regions ≠ [] ∨ s.myRing.ns = true ∨ effectiveWidth s o ≤ 1

/-- The stride that a `fork` address has learned for a register, zero where none is known (R138). -/
def learnedStride (s : State) (f : Word) (r : Reg) : Word :=
  match s.myRing.strides.find? (fun e => e.1 == f) with
  | some e => e.2.get r
  | none => 0

/-- A register at the start of chunk `j`, predicted at its `fork` (R138). -/
def predicted (s : State) (o : ForkF) (r : Reg) (j : Nat) : Word :=
  match s.me.inds.find? (fun d => d.1 == r) with
  | some d => s.me.x.get r + d.2 * BitVec.ofNat 64 (chunkSize o * j)
  | none => s.me.x.get r + learnedStride s s.me.pc r * BitVec.ofNat 64 j

/-- An instruction leaves a new packet in the fabric, and the executing core past it. -/
def SendsPacket (i : Instr) (s : State) (P : Pkt → Prop) : Prop :=
  Completes i s (fun t => SameMemory s t ∧ ∃ p, t.fab.pkts = s.fab.pkts ++ [p] ∧ P p ∧
    t.me = passed { s.me with
      mseq := Table.put s.me.mseq (4 * p.dcore + p.buf.val) ((p.mseq + 1) % 2 ^ 32) } 8)

/-- The target and length words of a message name a buffer of a core of this package and a payload of at most `most`
bytes (R423). -/
def MessageWords (s : State) (o : SendF) (most : Nat) : Prop :=
  let a := (s.x o.a).toNat
  let l := (s.x o.c).toNat
  a / 2 ^ 56 = 0xFE ∧ (a / 2 ^ 44 % 4096 = 0 ∨ a / 2 ^ 44 % 4096 = s.fab.devidAct) ∧ a / 4 % 2 ^ 30 = 0 ∧
    l / 2 ^ 32 = 0 ∧ l / 2 ^ 13 % 8 = 0 ∧ l % 2 ^ 13 ≤ most

/-- No message of the executing core is unacknowledged, and its key is a member of its node. -/
def MaySend (s : State) : Prop :=
  (∀ p ∈ s.fab.pkts, p.score ≠ s.cur ∨ p.sdev ≠ 0) ∧ s.memberN (nodeOf s.cur) s.key = true

/-- The packet of a message (R424, R198): its stream, its sequence value, its tag and its payload. Under gateway-counted delivery
it waits at its source for an earlier packet to its buffer (R67). -/
def IsMessage (s : State) (o : SendF) (payload : List Byte) (p : Pkt) : Prop :=
  let a := (s.x o.a).toNat
  p.kind = 7 ∧ p.key = s.key ∧ p.score = s.cur ∧ p.sdev = 0 ∧ p.dcore = a / 2 ^ 32 % 4096 ∧ p.buf.val = a % 4 ∧
    p.src = s.cur / 16 % 256 ∧ p.dst = p.dcore / 16 ∧ p.lane = a % 4 ∧ p.sand = o.sand ∧
    p.phase = (if s.lineBusy p then .queued else .fly) ∧
    p.mseq = Table.get s.me.mseq (4 * p.dcore + p.buf.val) 0 ∧ p.tag = s.x o.d ∧ p.payload = payload

/-- The executing core's key opens the way to a core's scratchpad: firmware's, or one that is a member at both ends and the ring's own,
no thread of it being parked there (R55, R123). -/
def Reaches (s : State) (d : Fin 4096) : Prop :=
  s.key = 0 ∨ (s.memberN (s.cur / 16) s.key = true ∧ s.memberN (d.val / 16) s.key = true ∧ (s.ring (d.val / 16)).key = s.key ∧
    ∀ p, (s.ring (d.val / 16)).parked = some p → p.thread.key ≠ s.key)

/-- Occupied bytes of a receive buffer, and bytes of an entry with a payload of `n` bytes (R197, R198). -/
def occupied (b : Rb) : Nat := (b.tail + 2 ^ 19 - b.head) % 2 ^ 19
def entrySize (n : Nat) : Nat := 64 + 64 * ((n + 63) / 64)

/-- The integer operations of `ratom` by code (R427), before the result is cut to the width. -/
def remoteRows : List (Nat × (Ty → Nat → Nat → Nat)) :=
  [(0, fun _ x y => x + y), (1, fun _ x y => x &&& y), (2, fun _ x y => x ||| y), (3, fun _ x y => x ^^^ y),
   (4, fun _ _ y => y), (6, fun t x y => if valueIn t x ≤ valueIn t y then x else y),
   (7, fun t x y => if valueIn t x ≤ valueIn t y then y else x)]

/-- No io page holds a byte of an access. -/
def NoIo (s : State) (w : Who) (va n : Nat) : Prop := s.touchesIo w va n = false

/-- An event of a queue reaches its descriptor at `d` (R113, R436): the words read there make `q`, and `t` is the state in
which the event goes on. -/
def FindsQueue (s : State) (d : Nat) (q : QDesc) (t : State) : Prop :=
  ∃ s₁ s₂ s₃ v vs ws, s.placeDesc d = .ok v s₁ ∧ s₁.canWrite s₁.key (descWords d) = .ok vs s₂ ∧
    s₂.getWords s₂.key (descWords d) = .ok ws s₃ ∧ q = QDesc.ofWords ws ∧ t = s₃.clearSched

/-! ### The module, its registers and its fabric -/

/-- An event completes, and all that it changes is the module outside its cores and its memory. -/
def DevBecomes (i : Instr) (s : State) (d : Dev) : Prop := exec i s = .next { s with dev := d }

/-- An event completes, and all that it changes is the fabric. -/
def FabBecomes (i : Instr) (s : State) (f : Fab) : Prop := exec i s = .next { s with fab := f }

/-- An event completes and changes nothing. -/
def Stutters (i : Instr) (s : State) : Prop := exec i s = .next s

/-- No job is open. -/
def NoJobOpen (s : State) : Prop := ∀ j, (s.job j).st ≠ .open_

/-- The point a network clock domain moves to, and its count of quiet samples (R22). -/
def governed (m : Domain) (cap depth : Nat) : Nat × Nat :=
  let c := m.ctl.toNat
  let most := c / 2 ^ 24 % 8
  let least := min (c / 2 ^ 20 % 8) most
  let within (t : Nat) : Nat := max least (min t (min most cap))
  if c / 2 ^ 31 % 2 = 1 then (min (c / 2 ^ 16 % 8) cap, m.quiet)
  else if c / 2 ^ 8 % 256 ≤ depth then (within (m.cur + 1), 0)
  else if depth ≤ c % 256 then
    (if m.quiet + 1 < 8 then (within m.cur, m.quiet + 1) else (within (m.cur - 1), 0))
  else (within m.cur, 0)

/-- The throttle level and its quiet count after a measurement (R25). -/
def throttled (p : Power) (m : PowerSample) : Nat × Nat :=
  if 4600 < m.pkgW.toNat ∨ 4800 < m.modW.toNat ∨ 105 ≤ m.temp then (min (p.thr + 1) 15, 0)
  else if m.pkgW.toNat ≤ 4370 ∧ m.modW.toNat ≤ 4560 ∧ m.temp < 100 then
    (if p.quiet + 1 < 10 then (p.thr, p.quiet + 1) else (p.thr - 1, 0))
  else (p.thr, 0)

/-- The step of the boot chain that fails and its cause, in a boot from step `first`: one of the five, and none before the
first (R27, R28). -/
def bootFailure (first : Nat) (b : BootReport) : Option (Nat × Nat) :=
  match b.failed with
  | some (step, cause) => some (min 5 (max first step), cause)
  | none => none

/-- Steps of the boot chain that have passed. -/
def bootedTo (first : Nat) (b : BootReport) : Nat :=
  match bootFailure first b with
  | some (step, _) => step - 1
  | none => 5

/-- A byte of memory outside the module: the host's, or a Type 3 device's. -/
def Beyond (a : Nat) : Bool := rangeOf a == .cxl

/-- Offsets that the memory control block lists (R176). -/
def MemoryOffset (o : Nat) : Prop :=
  o % 8 = 0 ∧ (o < 0x200 ∨ (0x1000 ≤ o ∧ o < 0x1800 ∧ o % 0x40 ≤ 0x18) ∨ o = 0x2000 ∨ o = 0x2008)

/-- Offsets that the fabric block lists: 256 nodes, 24 ports, the configuration and the route table (R57). -/
def FabricOffset (o : Nat) : Prop :=
  o % 8 = 0 ∧ ((o < 0x100000 ∧ o % 0x1000 < 0x220) ∨ (0x100000 ≤ o ∧ o < 0x118000 ∧ o % 0x1000 < 0x210) ∨ o = 0x200000 ∨
    (0x208000 ≤ o ∧ o < 0x210000))

/-- Offsets that the module control block lists (R18). -/
def ModuleOffset (o : Nat) : Prop :=
  o % 8 = 0 ∧ (o ≤ 0x200 ∨ o = 0x300 ∨ o = 0x308 ∨ (0x400 ≤ o ∧ o < 0x4C0) ∨ (0x500 ≤ o ∧ o < 0x5C0))

/-- An io-class address names a register of one of the three blocks. -/
def IoRegister (pa : Nat) : Prop :=
  (0xFFD000000 ≤ pa ∧ pa < 0xFFD010000 ∧ MemoryOffset (pa - 0xFFD000000)) ∨
    (0xFFE000000 ≤ pa ∧ pa < 0xFFE400000 ∧ FabricOffset (pa - 0xFFE000000)) ∨
    (0xFFF000000 ≤ pa ∧ pa < 0xFFF010000 ∧ ModuleOffset (pa - 0xFFF000000))

/-- An aligned offset of BAR0 below the MSI-X table that names a register (R84). -/
def Bar0Register (o : Nat) : Prop :=
  o = 0 ∨ o = 0x1000 ∨ o = 0x1008 ∨ (0x1100 ≤ o ∧ o < 0x1300) ∨ (0x2000 ≤ o ∧ o ≤ 0x2018) ∨ (0x10000 ≤ o ∧ o < 0x20000) ∨
    (0x100000 ≤ o ∧ o < 0x200000 ∧ o % 0x1000 ≤ 0x28) ∨ (0x200000 ≤ o ∧ o < 0x210000 ∧ ModuleOffset (o - 0x200000))

/-- An access of `n` bytes at an offset of BAR0 that names a register, of the register's size: 8 bytes aligned, and 4 or 8 in the MSI-X
table and its pending bits, at 0x300000 to 0x30101F. -/
def Bar0Access (o n : Nat) : Prop :=
  if 0x300000 ≤ o ∧ o < 0x301020 then (n = 4 ∨ n = 8) ∧ o % n = 0 else o % 8 = 0 ∧ n = 8 ∧ Bar0Register o

/-- The flits at a node are just one. -/
def OnlyFlit (s : State) (n : Fin 256) (f : Flit) : Prop := s.fab.flits.filter (fun g => g.at_ == n.val) = [f]

/-- A flit has not left its source. -/
def AtSource (f : Flit) : Prop := f.inp = none

/-- A flit comes in through a port of a node, on the port's plane. -/
def ComesIn (f : Flit) : Prop := ∃ p < 8, f.inp = some p ∧ f.plane = p % 2

/-- The flits after one of them has gone through a port of a node: it stays on that port's plane, a hop older. -/
def hopped (fs : List Flit) (f : Flit) (n : Fin 256) (p : Nat) : List Flit :=
  fs.erase f ++ [{ f with at_ := portTo n.val p, inp := some p, plane := p % 2, age := min (f.age + 1) 1023 }]

/-- The packets with one of them replaced. -/
def replaced (s : State) (p q : Pkt) : List Pkt := s.fab.pkts.map (fun o => if o.pid = p.pid then q else o)

/-- A packet that carries an answer of a kind from a packet's destination to a node, on its lane (R45, R46). -/
def Carries (p a : Pkt) (to_ kind : Nat) : Prop :=
  a.ref = some p.pid ∧ a.kind = kind ∧ a.src = p.dst ∧ a.dst = to_ ∧ a.lane = p.lane ∧ a.key = p.key ∧ a.phase = .fly

/-- The node to which an answer goes: the packet's source; for another device the node of the UALink port that the route table names
(R61). -/
def backTo (s : State) (p : Pkt) : Nat :=
  match p.origin, s.portOut (p.dst / 64) p.sdev p.addr with
  | some _, some port => ualNode port
  | _, _ => p.src

/-- A packet has been answered: it stands so, and a packet of a kind carries the answer back. -/
def Answered (s t : State) (p : Pkt) (ph : Phase) (kind : Nat) : Prop :=
  ∃ r a, r.kind = kind ∧ t.fab.pkts = replaced s p { p with phase := ph, reply := some r } ++ [a] ∧ Carries p a (backTo s p) kind

/-- The request of an access to memory or a scratchpad of this package: its key was checked where it was asked for. -/
def IsRequest (p : Pkt) : Prop := p.kind ≤ 3 ∧ p.away = none ∧ p.origin = none ∧ p.hart = none

/-- A packet is checked at its destination: all of it is there, and no earlier one of its stream is pending. -/
def Checked (s : State) (p : Pkt) : Prop :=
  s.pkt p.pid = some p ∧ p.phase = .fly ∧ p.head = true ∧ p.open_ = false ∧ p.sand = false ∧
    (∀ b < (p.payload.length + 63) / 64, p.arrived.getLsbD b = true) ∧ s.before p = []

/-- The receiver admits a message: its key is a member of the node and the resident key of the ring, whose thread is not
parked, and the core's handler was not entered by an interrupt. -/
def Admitted (s : State) (p : Pkt) : Prop :=
  p.kind = 7 ∧ p.away = none ∧ s.memberN p.dst p.key = true ∧
    (p.key = 0 ∨ ((s.ring (p.dcore / 16)).key = p.key ∧ (s.ring (p.dcore / 16)).parked = none)) ∧
    ((s.core p.dcore).handler = false ∨ (s.core p.dcore).tcause.getLsbD 63 = false)

/-- A counter has counted one event for a key (R59). -/
def counted (t : Table Word) (n key : Nat) : Table Word :=
  Table.put t n (BitVec.ofNat 64 (key % 65536 * 2 ^ 48 + min ((Table.get t n 0).toNat % 2 ^ 48 + 1) (2 ^ 48 - 1)))

/-! ### The host's lines, the mailbox and the scheduler -/

/-- A half of the host-line cache in a state, with no request outstanding. -/
def HalfIs (s : State) (h : Nat) (st : Mesi) : Prop := s.half h = { st := st, req := none }

/-- A module line whose filter entry is in a state, with no back-invalidate outstanding. -/
def FilterIs (s : State) (l : Nat) (st : FilterSt) : Prop :=
  isModuleLine l = true ∧ s.filt l = { st := st, bi := none, held := [] }

/-- A mailbox command has been started, no result is held back, and attestation does not stand in its way. -/
def Started (s : State) (code : Nat) : Prop :=
  s.dev.mbxBusy = true ∧ s.dev.mbxCmd = code ∧ s.dev.mbxPost = none ∧ s.dev.attReq = false

/-- A word of the command's operands (R86). -/
def operandWord (s : State) (i : Nat) : Nat := (s.dev.mbxIn.toList.getD i 0).toNat

/-- A command answers with a result, which its completion posts. -/
def answered (s : State) (res : Nat) (ws : List Word) : State :=
  { s with
    dev := { s.dev with mbxPost := some (res, ws) }
    turns := s.turns ++ [Turn.event .mbxCompletion] }

/-- An SPDM request on a trained link, once the boot has ended: in order it is answered with its body and moves the exchange on; out of order it
gets the error response (R90). -/
def Answers (i : Instr) (s : State) (l : Fin 8) (req : Nat) (inOrder : Prop) (body : List Byte) (next : Spdm) : Prop :=
  (s.dev.links.get l = none ∨ s.dev.bstep ≠ 5 → Stutters i s) ∧
  (s.dev.links.get l ≠ none → s.dev.bstep = 5 → ¬ inOrder →
    exec i s = .next { s with outs := s.outs ++ [Output.spdm l.val 0x7F []] }) ∧
  (s.dev.links.get l ≠ none → s.dev.bstep = 5 → inOrder → exec i s = .next { s with
    dev := { s.dev with spdm := s.dev.spdm.set l.val next l.isLt }, outs := s.outs ++ [Output.spdm l.val req body] })

/-- The translations that a TLB invalidation removes (R177). -/
def Matches (s : State) (l : Leaf) : Prop :=
  (s.tlbiOp = 2 ∨ l.key = s.tlbiKey) ∧
    (s.tlbiOp = 0 → l.page ≤ s.tlbiVa.toNat / 4096 * 4096 ∧ s.tlbiVa.toNat / 4096 * 4096 < l.page + l.size)

/-- A TLB invalidation leaves no translation that it matches and every other one, and its end follows. -/
def Invalidates (i : Instr) (s : State) : Prop :=
  Completes i s (fun t => t.mem = s.mem ∧ t.tlbiGo = true ∧ t.turns = s.turns ++ [Turn.event .tlbiDone] ∧
    (∀ c, ∀ l, l ∈ (t.core c).tlb ↔ l ∈ (s.core c).tlb ∧ ¬ Matches s l) ∧
    (∀ c, ∀ l, l ∈ Table.get t.tlb2 c [] ↔ l ∈ Table.get s.tlb2 c [] ∧ ¬ Matches s l))

/-- A launch has ended with a status, its record says so in memory, and its completion follows (R98, R107, R110). -/
def ended (s : State) (j : Fin 256) (r : Fin 4096) (status : Nat) : State :=
  ((s.setRec j.val r.val { s.recd j.val r.val with st := .completing, status := status }).report j.val r.val).after
    (.launchCompletion j r)

/-- A launch of a node of a kind in an open job is ready or running. -/
def IsNode (s : State) (j : Fin 256) (r : Fin 4096) (kind : Nat) (n : Snap) : Prop :=
  (s.recd j.val r.val).snap = some n ∧ ((s.recd j.val r.val).st = .ready ∨ (s.recd j.val r.val).st = .running) ∧
    n.ctl / 2 ^ 16 % 16 = kind ∧ (s.job j.val).st = .open_

/-- Evaluating a node makes a ready record running, and reads its word by an acquire at host scope. -/
def Evaluates (s : State) (j : Fin 256) (r : Fin 4096) (n : Snap) (w : Nat) (t : State) : Prop :=
  (s.startNode j.val r.val).evalWord j.val r.val n = .ok w t

/-- The successors that a launch selects (R104). -/
def Chosen (n : Snap) (word : Nat) : List Nat :=
  let all := n.succ.take n.nsucc
  if n.kind = 1 then [all.getD (if word = 0 then 0 else 1) 0] else if n.kind = 3 then (all.drop word).take 1 else all

/-- No park has stopped a thread. -/
def NoPark (s : State) : Prop := ∀ e ∈ s.cores, e.2.stopping ≠ some .park

/-- A core that an interrupt has entered (R124, R228, R230): the thread stops at its next instruction. -/
def interruptedBy (c : Core) (code : Nat) (val : Word) : Core :=
  { c with
    tcause := BitVec.ofNat 64 (2 ^ 63 + code + if c.regions = [] then 0 else 2 ^ 61)
    tepc := c.pc, tval := val, handler := true, pc := c.tvec, wait := .none }

/-- The chunks of a ring are one, on a core, with no version, buffered store or contribution to commit. -/
def LastChunk (s : State) (c : Fin 4096) (g : Forked) (k : Chunk) : Prop :=
  let r := s.ring (c.val / 16)
  r.forked = some g ∧ r.chunks = [k] ∧ k.slot.val = c.val % 16 ∧ k.restart = false ∧ r.bcasts = [] ∧ r.liveOuts = [] ∧
    (s.core c.val).l1 = [] ∧ (s.core c.val).sbuf = [] ∧ (s.core c.val).contribs = [] ∧ (s.core c.val).oreqs = []

/-- A core that waits so goes on with its instruction when its chunk is the oldest; otherwise nothing changes. -/
def GoesOn (i : Instr) (s : State) (c : Fin 4096) (w : Wait) : Prop :=
  (((s.ring (c.val / 16)).chunks.head?.map (·.slot.val)) = some (c.val % 16) → (s.core c.val).wait = w →
    exec i s = .next { s.setCore c.val { s.core c.val with wait := .none } with
      turns := s.turns ++ [Turn.core c.val] }) ∧
  ((s.core c.val).wait ≠ w → Stutters i s)

/-- A line of a core is a chunk's version. -/
def IsVersion (l : Line) : Prop := ∃ tag, l.st = .s tag

/-- A message about a line. -/
def message (k : MsgKind) (to_ for_ line : Nat) : Msg := { kind := k, to_ := to_, for_ := for_, line := line }

/-- Messages are on their way, and the rows that deliver them are due. -/
def sent (s : State) (ms : List Msg) : State :=
  { s with msgs := s.msgs ++ ms, turns := s.turns ++ ms.map (fun m => Turn.event m.row) }

/-- The home has served a request: its entry has changed, its messages are on their way, and the requester waits. -/
def served (s : State) (c : Fin 4096) (ln : Nat) (k : ReqKind) (st : DSt) (ms : List Msg) : State :=
  { sent (s.putDir ln { s.dir ln with st := st, busy := some (c.val, k) }) ms with
    pends := s.pends ++ [{ core := c.val, line := ln, own := k != .getS }] }

/-- A core that does not hold a line, or not as it needs it, asks for it for the first time. -/
def Asks (s : State) (c : Fin 4096) (ln : Nat) (k : ReqKind) : Prop :=
  (∀ p ∈ s.pends, ¬ (p.core = c.val ∧ p.line = ln)) ∧ (∀ q ∈ (s.dir ln).queue, q.1 ≠ c.val) ∧
    (∀ q, (s.dir ln).busy = some q → q.1 ≠ c.val) ∧ (∀ l, s.line c.val ln = some l → l.soft = false ∧
      (if k = .upg then l.coh ≠ .own else l.coh = .inv))

/-- No request to a line is in progress, no core contributes to it, and no core but the requester has dirty soft lines
recorded at its home. -/
def Idle (s : State) (c : Fin 4096) (ln : Nat) : Prop :=
  (s.dir ln).busy = none ∧ (s.dir ln).contributors = .u ∧ ∀ o ∈ (s.dir ln).records, o = c.val

/-- The first message in flight is this one, and the rest remain. -/
def Arrives (s : State) (m : Msg) (rest : List Msg) : Prop := s.msgs = m :: rest

/-- The state without the message that has arrived. -/
def taken (s : State) (rest : List Msg) : State := { s with msgs := rest }

/-- Rows of R184 for a request for ownership. -/
def OwnershipServed (i : Instr) (s : State) (c : Fin 4096) (ln : Nat) (k : ReqKind) : Prop :=
  Asks s c ln k → Idle s c ln →
    ((s.dir ln).st = .u → exec i s = .next (served s c ln k (.x c.val) [message (.data 0 false) c c ln])) ∧
    (∀ t, (s.dir ln).st = .p t →
      let os := t.filter (· != c.val)
      exec i s = .next (served s c ln k (.x c.val) (os.map (fun o => message .inval o c ln) ++
        [message (.data os.length (k == .upg && t.contains c.val)) c c ln]))) ∧
    (∀ g, (s.dir ln).st = .c g → ∃ os : List Nat, os.Nodup ∧
      (∀ o, o ∈ os ↔ o < 4096 ∧ g.getLsbD (o / 64) = true ∧ o ≠ c.val) ∧
      exec i s = .next (served s c ln k (.x c.val) (os.map (fun o => message .inval o c ln) ++
        [message (.data os.length false) c c ln]))) ∧
    (∀ o, (s.dir ln).st = .x o → o ≠ c.val →
      exec i s = .next (served s c ln k (.x c.val) [message (.fwd true) o c ln]))

/-- A word of `smev` after its first event: v is set, the scope and the line are the tag's, the rest stays (R224). -/
def FirstMiss (w old : Word) (t : RelTag) : Prop :=
  w.getLsbD 63 = true ∧ (w.extractLsb' 50 4).toNat = t.scope % 16 ∧ (w.extractLsb' 0 50).toNat = t.line % 2 ^ 50 ∧
    w.extractLsb' 54 9 = old.extractLsb' 54 9

/-- A word of `smev` after another event: it is counted as lost, and the rest stays (R224). -/
def LaterMiss (w old : Word) : Prop :=
  (w.extractLsb' 56 7).toNat = min ((old.extractLsb' 56 7).toNat + 1) 127 ∧ w.extractLsb' 0 56 = old.extractLsb' 0 56 ∧
    w.getLsbD 63 = true

/-- A copy is the first of its channel, between memories or scratchpads, and its hart has not begun it; the hart holds nothing,
and no packet of an earlier copy of the channel is outstanding. -/
def FirstCopy (s : State) (c : Fin 4096) (ch : Fin 4) (k : Copy) (rest : List Copy) : Prop :=
  s.copies = k :: rest ∧ k.core = c.val ∧ k.ch = ch.val ∧ k.performed = false ∧ k.lost = none ∧ k.pos = 0 ∧ k.regs = none ∧
    k.deny = none ∧ k.flying = 0 ∧ Table.get? s.cores (hartOf c.val ch.val) = none ∧
    ∀ p ∈ s.fab.pkts, ∀ b, p.hart ≠ some (c.val, ch.val, b)

/-- Copy harts work from the fourth step of the boot on. -/
def HartsReady (s : State) : Prop := 4 ≤ s.dev.bstep

/-- Faults of a copy have become sticky at the core that kicked it, and the copy has been performed. -/
def CopyStopped (s t : State) (c : Fin 4096) (k : Copy) (rest : List Copy) (bits : Nat) : Prop :=
  t.mem = s.mem ∧ t.copies = { k with performed := true } :: rest ∧
    t.core c.val = { s.core c.val with tstk := (s.core c.val).tstk ||| BitVec.ofNat 8 bits }

/-- The copy has been performed, no core has changed, and its completion is due. -/
def PerformedCopy (s t : State) (c : Fin 4096) (ch : Fin 4) (k : Copy) (rest : List Copy) : Prop :=
  t.cores = s.cores ∧ t.turns = s.turns ++ [Turn.event (.copyCompletion c ch)] ∧
    ∃ k' : Copy, t.copies = k' :: rest ∧ k'.performed = true ∧ k'.core = k.core ∧ k'.ch = k.ch ∧ k'.key = k.key

/-- `n` naturally aligned bytes of a core's own scratchpad, below its context area. -/
def OnPadOf (c : Fin 4096) (va n : Nat) : Prop :=
  va / 2 ^ 32 = 0xFE * 2 ^ 24 + c.val ∧ va % n = 0 ∧ va % 2 ^ 32 + n ≤ 0x40000

/-- A thread is on a core, and it has no chunk. -/
def Alone (s : State) (c : Fin 4096) (th : Thread) : Prop :=
  (s.ring (c.val / 16)).thread = some th ∧ (s.ring (c.val / 16)).head.val = c.val % 16 ∧ (s.ring (c.val / 16)).chunks = []

/-- The registers that a rollback gives a core at the begin of the region `g` of depth `e` (R259 step 5): the kept ones with their
snapshot, what the begin has recorded, every other at zero, and the attempt in the register that the begin names. -/
def rolledBack (k : Core) (kept : Vector Word 64 × Vector (BitVec 4096) 64) (e : Nat) (g : Region) : Core :=
  { k with
    x := if g.xd.val = 0 then kept.1 else kept.1.set g.xd.val (BitVec.ofNat 64 (g.retry + 1)) g.xd.isLt
    v := kept.2, p := Vector.replicate 16 0, t := Vector.replicate 4 0, vl := g.vl, vtype := g.vtype, frm := g.frm
    tshape := g.tshape, fflags := g.fflags, levels := g.levels, strip := g.strip, inds := [], vcm := 0, tpAct := false
    tpProg := 0, tmask := 0, staging := 0, wait := .none, pc := g.resume, logTail := g.start
    regions := { g with retry := g.retry + 1 } :: k.regions.drop (k.regions.length - e + 1) }

/-- The versions that regions of depth `e` and deeper have written are dropped, and outstanding requests no longer concern the core
(R259). -/
def dropRegions (s : State) (c e : Nat) : State :=
  s.setCore c { s.core c with
    l1 := (s.core c).l1.filter (fun l => match l.2.st with
      | .g j => decide (j < e)
      | _ => true)
    oreqs := (s.core c).oreqs.map (fun q => (q.1, true)) }

/-- A waiting core goes on with its instruction. -/
def goesOn (s : State) (c : Fin 4096) : State :=
  { s.setCore c.val { s.core c.val with wait := .none } with turns := s.turns ++ [Turn.core c.val] }

/-- Lane clusters keep at least four working lanes (R247). -/
def EnoughLanes (r : BitVec 64) : Prop := ∀ i < 4, ((List.range 16).filter (fun j => r.getLsbD (16 * i + j))).length ≤ 12

/-- The bytes of an instruction's words, in ascending address order. -/
def bytesOfWords (ws : List Nat) : List Byte := ws.flatMap wordBytes

/-- An unguarded instruction's guard. -/
def always : Guard := { g := 0, gn := false }

/-- A core takes its turn: it is the one that executes, recorded messages due at its ring under replay have come, and what it
waited for is over. -/
def inTurn (s : State) (c : Nat) : State :=
  let t := { s with cur := c }.feedRing (c / 16)
  t.setMe { t.me with
    wait := .none
    logged := if t.me.wait = .none then [] else t.me.logged
    vcmOn := t.me.wait != .none && t.me.vcmOn
    covered := if t.me.wait = .none then [] else t.me.covered }

end

end Sys2Proof.Spec

open Sys2Proof Sys2Proof.Machine Sys2Proof.Spec

/-! ### Scalar arithmetic -/

/-- R327, R328: the integer functions with two sources. For every type, guard and state in which the guard holds and no
flag the function sets is enabled, the instruction completes: x(d) holds the result of the table of R327 cut to the type,
`fflags` gains the flags it names, the pc moves on by 8, and nothing else changes. -/
def Obligations.IntegerFunctionsWriteTheirResult : Prop :=
  ∀ e ∈ integerRows, ∀ (o : XXX) (s : State), o.ty.isInt = true → s.active0 o.gd = true →
    let r := e.2 o.ty (source o.ty (s.x o.a)) (source o.ty (s.x o.b))
    r.2 &&& s.me.tren = 0 → Becomes (e.1 o) s (scalarDone s.me o.d (result o.ty r.1) r.2 8)

/-- R327, R328: the comparisons and counts write a 64-bit unsigned value; `sel` chooses by whether the low bits of C are
all zero; `ext` takes w bits of the whole x(a) at x(b)[5:0], bits above 63 as zero; `mov` writes A. None sets a flag. -/
def Obligations.ComparisonsCountsAndFieldsWriteTheirResult : Prop :=
  (∀ e ∈ compareRows, ∀ (o : XXX) (s : State), o.ty.isInt = true → s.active0 o.gd = true →
    Becomes (e.1 o) s
      (scalarDone s.me o.d (if e.2 (source o.ty (s.x o.a)) (source o.ty (s.x o.b)) then 1 else 0) 0 8)) ∧
  (∀ e ∈ countRows, ∀ (o : XX) (s : State), o.ty.isInt = true → s.active0 o.gd = true →
    Becomes (e.1 o) s (scalarDone s.me o.d (BitVec.ofNat 64 (e.2 o.ty.width (s.x o.a))) 0 8)) ∧
  (∀ (o : XXXX) (s : State), o.ty.isInt = true → s.active0 o.gd = true →
    let chosen := if (s.x o.c).setWidth o.ty.width = 0#o.ty.width then s.x o.b else s.x o.a
    Becomes (.sel o) s (scalarDone s.me o.d (result o.ty (source o.ty chosen)) 0 8)) ∧
  (∀ (o : XXX) (s : State), o.ty.isInt = true → s.active0 o.gd = true →
    Becomes (.ext o) s
      (scalarDone s.me o.d (widened o.ty ((s.x o.a >>> ((s.x o.b).toNat % 64)).setWidth o.ty.width)) 0 8)) ∧
  (∀ (o : XX) (s : State), o.ty.isInt = true → s.active0 o.gd = true →
    Becomes (.mov o) s (scalarDone s.me o.d (result o.ty (source o.ty (s.x o.a))) 0 8))

/-- R329 to R331: the immediate functions, both forms of `li`, and `lpc`, whose operand is the address of the `lpc`
itself. None sets a flag; the 128-bit `li` is 16 bytes long. -/
def Obligations.ImmediatesWriteTheirResult : Prop :=
  (∀ e ∈ immediateRows, ∀ (o : XXI) (s : State), s.active0 o.gd = true →
    Becomes (e.1 o) s (scalarDone s.me o.d (e.2 (s.x o.a) (o.imm.signExtend 64)) 0 8)) ∧
  (∀ (o : XI) (s : State), s.active0 o.gd = true →
    Becomes (.li o) s (scalarDone s.me o.d (o.imm.signExtend 64) 0 8) ∧
    Becomes (.lpc o) s (scalarDone s.me o.d (s.me.pc + 4 * o.imm.signExtend 64) 0 8)) ∧
  (∀ (o : XI64) (s : State), s.active0 o.gd = true → Becomes (.liImm64 o) s (scalarDone s.me o.d o.imm 0 16))

/-- R332, R333, R334: scalar floating point. The operands are the low bits of their registers, the result is rounded in the
mode the code names with subnormals honoured, x(d) receives it zero-extended, `fflags` gains its flags, and nothing else
changes when none of them is enabled. The function of each row is the model's of R275, R281, R288 and R334.
Choices of the model it rests on are in the assumption log, entry 71. -/
def Obligations.FloatFunctionsWriteTheirResult : Prop :=
  (∀ e ∈ floatRows, ∀ (o : FXXX) (s : State), s.active0 o.gd = true →
    let r := e.2 (scalarRounding s.me o.ty o.rm) (low s o.a o.ty.width) (low s o.b o.ty.width)
    r.fl &&& s.me.tren = 0 → Becomes (e.1 o) s (scalarDone s.me o.d (BitVec.ofNat 64 r.bits) r.fl 8)) ∧
  (∀ (o : FXX) (s : State), s.active0 o.gd = true →
    let r := fpSqrt (scalarRounding s.me o.ty o.rm) (low s o.a o.ty.width)
    r.fl &&& s.me.tren = 0 → Becomes (.fsqrt o) s (scalarDone s.me o.d (BitVec.ofNat 64 r.bits) r.fl 8)) ∧
  (∀ (o : FXXXX) (s : State), s.active0 o.gd = true →
    let r := fpFma (scalarRounding s.me o.ty o.rm) false false (low s o.a o.ty.width) (low s o.b o.ty.width)
      (low s o.c o.ty.width)
    r.fl &&& s.me.tren = 0 → Becomes (.fma o) s (scalarDone s.me o.d (BitVec.ofNat 64 r.bits) r.fl 8))

/-- R335 to R337, R286, R287: sign operations, comparisons (a truth value), class masks and conversions. A conversion draws
its stochastic bits with element index 0 (R333); `fcvti` writes its integer as the type says.
Choices of the model it rests on are in the assumption log, entries 70, 71. -/
def Obligations.FloatComparesAndConversionsWriteTheirResult : Prop :=
  (∀ (o : FSgn) (s : State), s.active0 o.gd = true →
    Becomes (.fsgn o) s (scalarDone s.me o.d
      (BitVec.ofNat 64 (fpSgn o.sub (fmtOf o.ty) (low s o.a o.ty.width) (low s o.b o.ty.width))) 0 8)) ∧
  (∀ e ∈ floatCompareRows, ∀ (o : FXXX) (s : State), s.active0 o.gd = true →
    let r := fpCmp e.2 false (fmtOf o.ty) (low s o.a o.ty.width) (low s o.b o.ty.width)
    r.2 &&& s.me.tren = 0 → Becomes (e.1 o) s (scalarDone s.me o.d (if r.1 then 1 else 0) r.2 8)) ∧
  (∀ (o : FXX) (s : State), s.active0 o.gd = true →
    Becomes (.fclass o) s
      (scalarDone s.me o.d (BitVec.ofNat 64 (fpClass (fmtOf o.ty) (low s o.a o.ty.width))) 0 8)) ∧
  (∀ (o : FCvt) (s : State), s.active0 o.gd = true →
    let b := low s o.a o.src.width
    let narrow := RndUse.ofCvt o.src o.ty == .narrowing
    let env : FEnv :=
      { f := fmtOf o.ty, mode := roundingMode s.me.frm o.rm narrow, fz := false, rnd := s.me.random 0 b }
    let r := cvtFF env (fmtOf o.src) b
    r.fl &&& s.me.tren = 0 → Becomes (.fcvt o) s (scalarDone s.me o.d (BitVec.ofNat 64 r.bits) r.fl 8)) ∧
  (∀ (o : FCvt) (s : State), s.active0 o.gd = true →
    let r := cvtFI o.ty (roundingMode s.me.frm o.rm false) ((fmtOf o.src).value (low s o.a o.src.width))
    r.fl &&& s.me.tren = 0 →
      Becomes (.fcvti o) s (scalarDone s.me o.d (widened o.ty (BitVec.ofNat o.ty.width r.bits)) r.fl 8)) ∧
  (∀ (o : FCvt) (s : State), s.active0 o.gd = true →
    let r := cvtIF (scalarRounding s.me o.ty o.rm) (source o.src (s.x o.a))
    r.fl &&& s.me.tren = 0 → Becomes (.ficvt o) s (scalarDone s.me o.d (BitVec.ofNat 64 r.bits) r.fl 8))

/-- R275: rounding is exact on what a format holds. For every floating-point format with a scalar type, every rounding mode
and every random word, the value of a finite encoding rounds to that encoding and sets no flag. -/
def Obligations.RepresentableValuesRoundToThemselves : Prop :=
  ∀ t ∈ [Ty.f64, Ty.f32, Ty.f16, Ty.bf16, Ty.e4m3, Ty.e5m2, Ty.e2m1], ∀ (mode rnd b : Nat) (neg : Bool) (n d : Nat),
    b < 2 ^ t.width → (fmtOf t).value b = .fin neg n d → (fmtOf t).round mode rnd neg n d = ⟨b, 0⟩

/-- R231, R324: when a scalar integer function sets a flag that is enabled, it writes its result and its flags all the
same and then takes trap 0x0D: `tmask` has bit 0 alone, `tepc` holds the address of the following instruction, `tval` that
of the instruction, and execution goes on at `tvec` in handler mode. -/
def Obligations.AnEnabledFlagTrapsAfterTheResult : Prop :=
  ∀ e ∈ integerRows, ∀ (o : XXX) (s : State), o.ty.isInt = true → s.active0 o.gd = true → TrapsNow s →
    let r := e.2 o.ty (source o.ty (s.x o.a)) (source o.ty (s.x o.b))
    r.2 &&& s.me.tren ≠ 0 →
      let done := s.setMe { scalarDone s.me o.d (result o.ty r.1) r.2 8 with tmask := 1 }
      exec (e.1 o) s = .next (trapped done 0x0D (s.me.pc + 8) s.me.pc)

/-! ### Control transfer -/

/-- R338 to R340: outside forked loops a taken branch, `call`, `jr`, `jalr` and `ret` go to their target, a link register
receives pc + 8 (the target is read first), and a branch not taken goes on at pc + 8. `bpt` and `bpf` test bit 0 of a
predicate register. `nop` only advances. -/
def Obligations.TransfersGoToTheirTarget : Prop :=
  (∀ (o : BrOff) (s : State), Unforked s → Becomes (.b o) s (jumped s.me (target s o.off))) ∧
  (∀ (o : BrReg) (s : State), Unforked s →
    Becomes (.call o) s (jumped (s.me.setX o.r (s.me.pc + 8)) (target s o.off))) ∧
  (∀ (o : JumpReg) (s : State), Unforked s → s.active0 o.gd = true → (s.x o.a).toNat % 4 = 0 →
    Becomes (.jr o) s (jumped s.me (s.x o.a)) ∧ Becomes (.ret o) s (jumped s.me (s.x o.a))) ∧
  (∀ (o : JumpLink) (s : State), Unforked s → s.active0 o.gd = true → (s.x o.a).toNat % 4 = 0 →
    Becomes (.jalr o) s (jumped (s.me.setX o.d (s.me.pc + 8)) (s.x o.a))) ∧
  (∀ e ∈ branchRows, ∀ (o : BrCmp) (s : State), Unforked s →
    Becomes (e.1 o) s (if e.2 (s.x o.a) (s.x o.b) then jumped s.me (target s o.off) else passed s.me 8)) ∧
  (∀ (o : BrReg) (s : State) (h : o.r.val < 16), Unforked s →
    let bit := (s.me.getP ⟨o.r.val, h⟩).getLsbD 0
    Becomes (.bpt o) s (if bit then jumped s.me (target s o.off) else passed s.me 8) ∧
    Becomes (.bpf o) s (if bit then passed s.me 8 else jumped s.me (target s o.off))) ∧
  (∀ (o : OnlyGuard) (s : State), Becomes (.nop o) s (passed s.me 8))

/-- R341, R144: inside a chunk of a forked loop a transfer to the body keeps the call depth, `call` adds 1 to it, `ret` at
a greater depth subtracts 1; at depth 0 a taken branch out of the body and a `ret` leave the loop: the chunk stalls at the
instruction, its pc and its registers as they were. -/
def Obligations.TransfersInAForkedLoopKeepCallDepth : Prop :=
  ∀ (s : State) (k : Chunk) (g : Forked), s.me.handler = false → s.myChunk = some k → s.myRing.forked = some g →
    (∀ o : BrOff, 0 < k.depth ∨ InBody g (target s o.off) →
      exec (.b o) s = .next ((atDepth s k k.depth).setMe (jumped s.me (target s o.off)))) ∧
    (∀ o : BrReg, exec (.call o) s =
      .next ((atDepth s k (k.depth + 1)).setMe (jumped (s.me.setX o.r (s.me.pc + 8)) (target s o.off)))) ∧
    (∀ o : JumpReg, s.active0 o.gd = true → (s.x o.a).toNat % 4 = 0 → 0 < k.depth →
      exec (.ret o) s = .next ((atDepth s k (k.depth - 1)).setMe (jumped s.me (s.x o.a)))) ∧
    (∀ o : JumpReg, s.active0 o.gd = true → (s.x o.a).toNat % 4 = 0 → k.depth = 0 →
      exec (.ret o) s = .next (leaving s (s.x o.a) none)) ∧
    (∀ o : BrOff, k.depth = 0 → ¬ InBody g (target s o.off) →
      exec (.b o) s = .next (leaving s (target s o.off) none)) ∧
    (∀ o : JumpLink, s.active0 o.gd = true → (s.x o.a).toNat % 4 = 0 → k.depth = 0 → ¬ InBody g (s.x o.a) →
      exec (.jalr o) s = .next (leaving s (s.x o.a) (some (o.d, s.me.pc + 8))))

/-- R294: two zero words are illegal with sub-cause 5 and every other word of major opcode 0xFF with sub-cause 6, whatever else
they hold, where they fit their block (R306). A `jr`, `jalr` or `ret` to a target whose low two bits are not zero takes trap
0x03 itself, with fault record cause 7 and acc 4: `tepc` holds its own address and `tval` the target, and it has no other
effect. The targets of branches and `call` are multiples of 4. -/
def Obligations.IllegalWordsAndMisalignedTargetsTrap : Prop :=
  (∀ (off : Nat) (rest : List Byte), off ≤ 24 → decode off (bytesOfWords [0, 0] ++ rest) = .illegal 5) ∧
  (∀ (off w : Nat) (rest : List Byte), w < 2 ^ 32 → w / 4 % 256 = 0xFF → w % 4 ≠ 3 → off + 4 * (w % 4 + 2) ≤ 32 →
    decode off (bytesOfWords [w] ++ rest) = .illegal 6) ∧
  (∀ (s : State) (off : BitVec 32), s.me.pc.toNat % 4 = 0 → (target s off).toNat % 4 = 0) ∧
  ∀ (s : State), TrapsNow s →
    let trap (tgt : Word) : State :=
      trapped (s.recordMe { cause := 7, acc := 4, va := tgt.toNat }) (0x03 + 65536 * 7) s.me.pc tgt
    (∀ o : JumpReg, s.active0 o.gd = true → (s.x o.a).toNat % 4 ≠ 0 →
      exec (.jr o) s = .next (trap (s.x o.a)) ∧ exec (.ret o) s = .next (trap (s.x o.a))) ∧
    (∀ o : JumpLink, s.active0 o.gd = true → (s.x o.a).toNat % 4 ≠ 0 → exec (.jalr o) s = .next (trap (s.x o.a)))

/-- R322: a scalar arithmetic, floating-point or register-transfer instruction whose guard is false writes no register,
sets no flag, takes no trap and only advances to the next instruction. -/
def Obligations.AFalseGuardOnlyAdvances : Prop :=
  ∀ (s : State),
    (∀ i ∈ integerRows.map (·.1) ++ compareRows.map (·.1) ++ [Instr.ext], ∀ o : XXX, s.active0 o.gd = false →
      Becomes (i o) s (passed s.me 8)) ∧
    (∀ i ∈ countRows.map (·.1) ++ [Instr.mov], ∀ o : XX, s.active0 o.gd = false → Becomes (i o) s (passed s.me 8)) ∧
    (∀ i ∈ immediateRows.map (·.1), ∀ o : XXI, s.active0 o.gd = false → Becomes (i o) s (passed s.me 8)) ∧
    (∀ i ∈ [Instr.li, Instr.lpc], ∀ o : XI, s.active0 o.gd = false → Becomes (i o) s (passed s.me 8)) ∧
    (∀ o : XI64, s.active0 o.gd = false → Becomes (.liImm64 o) s (passed s.me 16)) ∧
    (∀ o : XXXX, s.active0 o.gd = false → Becomes (.sel o) s (passed s.me 8)) ∧
    (∀ i ∈ floatRows.map (·.1) ++ floatCompareRows.map (·.1), ∀ o : FXXX, s.active0 o.gd = false →
      Becomes (i o) s (passed s.me 8)) ∧
    (∀ i ∈ [Instr.fsqrt, Instr.fclass], ∀ o : FXX, s.active0 o.gd = false → Becomes (i o) s (passed s.me 8)) ∧
    (∀ i ∈ [Instr.fcvt, Instr.fcvti, Instr.ficvt], ∀ o : FCvt, s.active0 o.gd = false →
      Becomes (i o) s (passed s.me 8)) ∧
    (∀ o : FXXXX, s.active0 o.gd = false → Becomes (.fma o) s (passed s.me 8)) ∧
    (∀ o : FSgn, s.active0 o.gd = false → Becomes (.fsgn o) s (passed s.me 8)) ∧
    (∀ i ∈ [Instr.jr, Instr.ret], ∀ o : JumpReg, s.active0 o.gd = false → Becomes (i o) s (passed s.me 8)) ∧
    (∀ o : JumpLink, s.active0 o.gd = false → Becomes (.jalr o) s (passed s.me 8))

/-! ### Memory accesses -/

/-- R62, R63, R343, R344: a load of the executing core's own scratchpad by its window address. x(d) receives the bytes,
little-endian and extended as the type says; `ldp` writes x(d) and x(d + 1). Nothing else changes.
Choices of the model it rests on are in the assumption log, entry 8. -/
def Obligations.OwnScratchpadLoadsReadItsBytes : Prop :=
  (∀ (o : LdF) (s : State), o.ty.isLoad = true → s.active0 o.gd = true → (o.acq = false ∨ o.sc.val = 0) →
    let va := address s o.a o.imm
    let n := o.ty.width / 8
    OnOwnPad s va n →
    Becomes (.ld o) s (scalarDone s.me o.d (widened o.ty (BitVec.ofNat o.ty.width (Memory.readN s.mem va n))) 0 12)) ∧
  (∀ (o : LdpF) (s : State) (h : o.d.val + 1 < 64), o.d.val % 2 = 0 → s.active0 o.gd = true →
    (o.acq = false ∨ o.sc.val = 0) →
    let va := address s o.a o.imm
    let v := Memory.readN s.mem va 16
    OnOwnPad s va 16 →
    Becomes (.ldp o) s
      (scalarDone (s.me.setX o.d (BitVec.ofNat 64 v)) ⟨o.d.val + 1, h⟩ (BitVec.ofNat 64 (v / 2 ^ 64)) 0 12))

/-- R62, R63, R343: a store to the executing core's own scratchpad by its window address writes the low bytes of x(b),
little-endian, and nothing else: every byte outside them reads as before, and no register changes but the pc. `stp` stores
x(b) below x(b + 1).
Choices of the model it rests on are in the assumption log, entry 8. -/
def Obligations.OwnScratchpadStoresWriteOnlyTheirBytes : Prop :=
  (∀ (o : StF) (s : State), o.ty.isLoad = true → s.active0 o.gd = true → (o.rel = false ∨ o.sc.val = 0) →
    let va := address s o.a o.imm
    let n := o.ty.width / 8
    OnOwnPad s va n → Stores (.st o) s va n (low s o.b o.ty.width) 12) ∧
  (∀ (o : StpF) (s : State) (h : o.b.val + 1 < 64), o.b.val % 2 = 0 → s.active0 o.gd = true →
    (o.rel = false ∨ o.sc.val = 0) →
    let va := address s o.a o.imm
    OnOwnPad s va 16 →
    Stores (.stp o) s va 16 ((s.x ⟨o.b.val + 1, h⟩).toNat * 2 ^ 64 + (s.x o.b).toNat) 12)

/-- R351, R352: an atomic on the executing core's own scratchpad. x(d) receives the old value, extended as the type says,
and the location the new value of the table of R351; `amocas` writes only where the old value equals B. Every other byte
reads as before.
Choices of the model it rests on are in the assumption log, entry 75. -/
def Obligations.AtomicsReturnTheOldValueAndWriteTheNew : Prop :=
  (∀ e ∈ atomicRows, ∀ (o : AmoF) (s : State), 8 ≤ o.ty.width → s.active0 o.gd = true →
    ((o.acq = false ∧ o.rel = false) ∨ o.sc.val = 0) →
    let va := (s.x o.a).toNat
    let n := o.ty.width / 8
    let old := Memory.readN s.mem va n
    OnOwnPad s va n →
    exec (e.1 o) s = .next ((stored s va n (e.2 o.ty old (low s o.b o.ty.width) % 2 ^ o.ty.width)).setMe
      (scalarDone s.me o.d (widened o.ty (BitVec.ofNat o.ty.width old)) 0 8))) ∧
  (∀ (o : CasF) (s : State), 8 ≤ o.ty.width → s.active0 o.gd = true →
    ((o.acq = false ∧ o.rel = false) ∨ o.sc.val = 0) →
    let va := (s.x o.a).toNat
    let n := o.ty.width / 8
    let old := Memory.readN s.mem va n
    OnOwnPad s va n →
    exec (.amocas o) s = .next
      ((if old = low s o.b o.ty.width then stored s va n (low s o.c o.ty.width) else s).setMe
        (scalarDone s.me o.d (widened o.ty (BitVec.ofNat o.ty.width old)) 0 8)))

/-- R343, R348, R351, R178, R237: in every memory class a scalar load, store, contribution or atomic ends as its access
does: it writes its destination and goes on, or a fault record is written and the trap of its cause taken with the address
in `tval`, or it waits.
Choices of the model it rests on are in the assumption log, entries 26, 27, 28, 30. -/
def Obligations.ScalarAccessesEndAsTheirAccessDoes : Prop :=
  (∀ (o : LdF) (s : State), s.active0 o.gd = true →
    let va := address s o.a o.imm
    let n := o.ty.width / 8
    Unhindered s va n → (o.acq = true → va % n = 0) →
    EndsAs (.ld o) s
      (s.loadSync (s.whoWith { acq := o.acq, fresh := o.fr, sc := o.sc.val }) va n o.acq o.fr o.sc.val)
      (fun v t => t.setMe (scalarDone t.me o.d (widened o.ty (BitVec.ofNat o.ty.width v)) 0 12))) ∧
  (∀ (o : LdpF) (s : State) (h : o.d.val + 1 < 64), o.d.val % 2 = 0 → s.active0 o.gd = true →
    let va := address s o.a o.imm
    Unhindered s va 16 → (o.acq = true → va % 16 = 0) →
    EndsAs (.ldp o) s
      (s.loadSync (s.whoWith { acq := o.acq, fresh := o.fr, sc := o.sc.val }) va 16 o.acq o.fr o.sc.val)
      (fun v t => t.setMe
        (scalarDone (t.me.setX o.d (BitVec.ofNat 64 v)) ⟨o.d.val + 1, h⟩ (BitVec.ofNat 64 (v / 2 ^ 64)) 0 12))) ∧
  (∀ (o : StF) (s : State), s.active0 o.gd = true →
    let va := address s o.a o.imm
    let n := o.ty.width / 8
    Unhindered s va n → (o.rel = true → va % n = 0) →
    EndsAs (.st o) s
      (s.storeSync (s.whoWith { rel := o.rel, sc := o.sc.val }) va n (low s o.b o.ty.width) o.rel o.sc.val)
      (fun _ t => t.setMe (passed t.me 12))) ∧
  (∀ (o : StpF) (s : State) (h : o.b.val + 1 < 64), o.b.val % 2 = 0 → s.active0 o.gd = true →
    let va := address s o.a o.imm
    Unhindered s va 16 → (o.rel = true → va % 16 = 0) →
    EndsAs (.stp o) s
      (s.storeSync (s.whoWith { rel := o.rel, sc := o.sc.val }) va 16 ((s.x ⟨o.b.val + 1, h⟩).toNat * 2 ^ 64 + (s.x o.b).toNat) o.rel o.sc.val)
      (fun _ t => t.setMe (passed t.me 12))) ∧
  (∀ (o : FstF) (s : State), s.active0 o.gd = true →
    let va := address s o.a o.imm
    let n := o.ty.width / 8
    s.me.oreqs.length < 64 → s.inRegion = false → va % n = 0 →
    EndsAs (.fst o) s (s.contributeAt s.who va n (low s o.b o.ty.width) o.ty) (fun _ t => t.setMe (passed t.me 12))) ∧
  (∀ e ∈ atomicRows.zip atomicCodes, ∀ (o : AmoF) (s : State), s.active0 o.gd = true →
    let va := (s.x o.a).toNat
    let n := o.ty.width / 8
    let b := low s o.b o.ty.width
    Unhindered s va n → va % n = 0 →
    EndsAs (e.1.1 o) s
      (s.atomicSync (s.whoAtomic { ty := o.ty, op := e.2, b := b, b2 := 0 } o.acq o.rel o.sc.val) va n o.acq o.rel o.sc.val
        (fun old => some (e.1.2 o.ty old b % 2 ^ o.ty.width)))
      (fun v t => t.setMe (scalarDone t.me o.d (widened o.ty (BitVec.ofNat o.ty.width v)) 0 8))) ∧
  (∀ (o : CasF) (s : State), s.active0 o.gd = true →
    let va := (s.x o.a).toNat
    let n := o.ty.width / 8
    let op : AtomOp := { ty := o.ty, op := 5, b := low s o.b o.ty.width, b2 := low s o.c o.ty.width }
    Unhindered s va n → va % n = 0 →
    EndsAs (.amocas o) s
      (s.atomicSync (s.whoAtomic op o.acq o.rel o.sc.val) va n o.acq o.rel o.sc.val
        (fun old => if old = low s o.b o.ty.width then some (low s o.c o.ty.width) else none))
      (fun v t => t.setMe (scalarDone t.me o.d (widened o.ty (BitVec.ofNat o.ty.width v)) 0 8)))

/-- R235, R345, R230: a synchronising scalar access that is not naturally aligned takes trap 0x08 with its address in
`tval`, an odd register of a pair trap 0x11, and an io access, a contribution or a wide synchronisation in an open region
trap 0x0F; none has any other effect. An access that may leave the core waits while all 64 outstanding-request entries are in
use (R65).
Choices of the model it rests on are in the assumption log, entries 58, 75. -/
def Obligations.ScalarAccessChecksTrap : Prop :=
  ∀ (s : State), TrapsNow s →
    (∀ o : LdF, s.active0 o.gd = true → s.inRegion = false → o.acq = true →
      address s o.a o.imm % (o.ty.width / 8) ≠ 0 →
      exec (.ld o) s = .next (trapped s 0x08 s.me.pc (s.x o.a + o.imm.signExtend 64))) ∧
    (∀ o : AmoF, s.active0 o.gd = true → s.inRegion = false → s.me.tstk = 0 →
      (s.x o.a).toNat % (o.ty.width / 8) ≠ 0 → exec (.amoadd o) s = .next (trapped s 0x08 s.me.pc (s.x o.a))) ∧
    (∀ (o : LdpF) (_ : o.d.val % 2 = 0), s.active0 o.gd = true → s.inRegion = false → o.acq = true →
      address s o.a o.imm % 16 ≠ 0 →
      exec (.ldp o) s = .next (trapped s 0x08 s.me.pc (s.x o.a + o.imm.signExtend 64))) ∧
    (∀ o : StF, s.active0 o.gd = true → s.inRegion = false → s.me.tstk = 0 → o.rel = true →
      address s o.a o.imm % (o.ty.width / 8) ≠ 0 →
      exec (.st o) s = .next (trapped s 0x08 s.me.pc (s.x o.a + o.imm.signExtend 64))) ∧
    (∀ (o : StpF) (_ : o.b.val % 2 = 0), s.active0 o.gd = true → s.inRegion = false → s.me.tstk = 0 → o.rel = true →
      address s o.a o.imm % 16 ≠ 0 →
      exec (.stp o) s = .next (trapped s 0x08 s.me.pc (s.x o.a + o.imm.signExtend 64))) ∧
    (∀ o : LdF, s.me.regions ≠ [] → s.touchesIo s.who (address s o.a o.imm) (o.ty.width / 8) = true →
      exec (.ld o) s = .next (trapped s 0x0F s.me.pc 0)) ∧
    (∀ o : StF, s.me.regions ≠ [] → s.touchesIo s.who (address s o.a o.imm) (o.ty.width / 8) = true →
      exec (.st o) s = .next (trapped s 0x0F s.me.pc 0)) ∧
    (∀ o : LdpF, o.d.val % 2 = 1 → exec (.ldp o) s = .next (trapped s 0x11 s.me.pc 0)) ∧
    (∀ o : StpF, o.b.val % 2 = 1 → exec (.stp o) s = .next (trapped s 0x11 s.me.pc 0)) ∧
    (∀ o : FstF, s.me.regions ≠ [] → exec (.fst o) s = .next (trapped s 0x0F s.me.pc 0)) ∧
    (∀ o : StF, s.me.regions ≠ [] → o.rel = true → 0 < o.sc.val →
      exec (.st o) s = .next (trapped s 0x0F s.me.pc 0)) ∧
    (∀ o : LdF, s.active0 o.gd = true → s.inRegion = false → o.acq = false →
      s.touchesIo s.who (address s o.a o.imm) (o.ty.width / 8) = false → address s o.a o.imm / 2 ^ 56 ≠ 0xFE →
      64 ≤ s.me.oreqs.length → Becomes (.ld o) s { s.me with wait := .oreq })

/-! ### Synchronisation and system registers -/

/-- R354, R325, R209, R187, R188, R222, R225, R355, R356, R68, R220: a fence of scope wider than core is a commit point, at which
a speculative chunk stalls; one of core scope is ordinary and only advances, but for a full fence, which at every scope
invalidates the instruction cache. At a wider scope an acquire or full fence writes back and invalidates soft lines, of its
core alone outside forked loops, a release writes them back, and a release or full fence waits for unacknowledged messages within
its scope and, from host scope on, for what the host has still to take. `rel.widen` raises the scope of a release tag that its
own ring and key set. That a release of scope 9 waits for no report of a Type 3 device, and what waits for the host, are the
model's choices (entries 120 and 57).
Choices of the model it rests on are in the assumption log, entries 29, 57, 91, 120, 122. -/
def Obligations.FencesActOnSoftLinesAndReleaseTags : Prop :=
  (∀ i ∈ [Instr.fenceAcq, Instr.fenceRel, Instr.fenceFull], ∀ (o : ScopeF) (s : State), 0 < o.sc.val →
    s.me.handler = false → s.speculative = true → s.inRegion = false → Becomes (i o) s { s.me with wait := .commitPoint }) ∧
  (∀ (o : ScopeF) (s : State), o.sc.val = 0 →
    Becomes (.fenceAcq o) s (passed s.me 8) ∧ Becomes (.fenceRel o) s (passed s.me 8) ∧
    Becomes (.fenceFull o) s { passed s.me 8 with icache := [] }) ∧
  (∀ s : State, s.myRing.forked = none → s.softAcquire s.cur = s.softInval s.cur) ∧
  (∀ (o : ScopeF) (s : State), 0 < o.sc.val → Synchronises s →
    let inv := s.softAcquire s.cur
    let back := s.softBackAll s.cur
    exec (.fenceAcq o) s = .next (inv.setMe (passed inv.me 8)) ∧
    (s.unacked s.cur o.sc.val = false → o.sc.val < 6 ∨ back.backs = [] →
      exec (.fenceRel o) s = .next (back.setMe (passed back.me 8))) ∧
    (s.unacked s.cur o.sc.val = false → o.sc.val < 6 ∨ inv.backs = [] →
      exec (.fenceFull o) s = .next (inv.setMe { passed inv.me 8 with icache := [] })) ∧
    (s.unacked s.cur o.sc.val = true ∨ (6 ≤ o.sc.val ∧ back.backs ≠ []) →
      exec (.fenceRel o) s = .next (back.setMe { back.me with wait := .release })) ∧
    (s.unacked s.cur o.sc.val = true ∨ (6 ≤ o.sc.val ∧ inv.backs ≠ []) →
      exec (.fenceFull o) s = .next (inv.setMe { inv.me with icache := [], wait := .release }))) ∧
  (∀ (o : WidenF) (s t : State) (p : Place) (a : At) (g : RelTag), s.me.handler = false → Synchronises s →
    let va := (s.x o.a).toNat
    s.place s.who 0 va 1 = (t, .ok p) → (∀ x, p ≠ .held x) → t.myChunk = none → t.me.softDirty = false → t.unacked t.cur o.sc.val = false →
    t.backs = [] → t.syncLine t.who va = some a → (∀ l, t.line a.core a.ln = some l → l.st = .n) →
    (t.dir a.ln).tag = some g → g.key = t.key → g.ring = t.cur / 16 → g.scope < o.sc.val →
    exec (.relWiden o) s = .next
      ((t.putDir a.ln { t.dir a.ln with tag := some { g with scope := o.sc.val } }).setMe (passed t.me 8)))

/-- R216, R357: `ssync` at scope 3, 4 or 5 counts its arrival in the thread's count for that scope and waits for the
episode of that number; at another scope it takes trap 0x11, in handler mode, whose instruction it is not, the trap aborts the
thread, whose launch ends with status 2 (R355, R232, R233), and with a sticky denial outstanding it takes trap 0x09.
Choices of the model it rests on are in the assumption log, entry 91. -/
def Obligations.SsyncArrivesOnceAndWaits : Prop :=
  (∀ (o : ScopeF) (s : State) (th : Thread), s.me.handler = false → 3 ≤ o.sc.val → o.sc.val ≤ 5 → Synchronises s →
    s.me.softLines = [] → s.myRing.thread = some th → th.arrived = none →
    let ix : Fin 3 := Fin.ofNat 3 (o.sc.val - 3)
    let n := th.syncs.get ix + 1
    Completes (.ssync o) s (fun t =>
      t.me = { s.me with wait := .ssync o.sc.val n } ∧ SameMemory s t ∧
      ∃ th', t.myRing = { s.myRing with thread := some th' } ∧
        th' = { th with syncs := th.syncs.set ix.val n ix.isLt, arrived := some (o.sc.val, n, s.me.pc) })) ∧
  (∀ (o : ScopeF) (s : State), TrapsNow s → ¬ (3 ≤ o.sc.val ∧ o.sc.val ≤ 5) →
    exec (.ssync o) s = .next (trapped s 0x11 s.me.pc 0)) ∧
  (∀ (o : ScopeF) (s : State) (th : Thread), s.me.handler = true → s.myRing.thread = some th →
    Completes (.ssync o) s (fun t =>
      (t.recd th.job th.record).st = .completing ∧ (t.recd th.job th.record).status = 2)) ∧
  (∀ (o : ScopeF) (s : State), TrapsNow s → 3 ≤ o.sc.val → o.sc.val ≤ 5 → s.me.regions = [] →
    s.me.tstk.getLsbD 0 = true →
    exec (.ssync o) s = .next ((s.deferring false).setMe { s.me with
      tcause := BitVec.ofNat 64 (0x09 + 2 ^ 62), tepc := s.me.pc, tval := 0, handler := true, pc := s.me.tvec,
      wait := .none }))

/-- R310, R311, R359, R227, R159, R197, R254, R401: `sysr` writes the value of its register to x(d) and changes nothing else;
the buffer registers, `cycle` and `time` read so in a launch that neither captures nor replays (R260); a handler-only register reads so
in handler mode and takes trap 0x02 in thread mode; the index of no register takes trap 0x01 with sub-cause 2 in thread mode.
Choices of the model it rests on are in the assumption log, entries 69, 102. -/
def Obligations.SystemRegisterReadsReturnTheirValue : Prop :=
  (∀ e ∈ readRows, ∀ (o : SysrF) (s : State), o.idx.val = e.1 → s.active0 o.gd = true → s.myChunk = none →
    Becomes (.sysr o) s (scalarDone s.me o.d (e.2 s) 0 8)) ∧
  (∀ e ∈ capturedRows, ∀ (o : SysrF) (s : State), o.idx.val = e.1 → s.active0 o.gd = true → s.myChunk = none →
    Uncaptured s → Becomes (.sysr o) s (scalarDone s.me o.d (e.2 s) 0 8)) ∧
  (∀ (k : Fin 8) (o : SysrF) (s : State), s.active0 o.gd = true → s.myChunk = none →
    (o.idx.val = 0x008 + k.val → Becomes (.sysr o) s (scalarDone s.me o.d (wordAt s.me.vcm k.val) 0 8)) ∧
    (o.idx.val = 0x038 + k.val → Becomes (.sysr o) s (scalarDone s.me o.d (wordAt s.me.tmask k.val) 0 8))) ∧
  (∀ e ∈ handlerRows, ∀ (o : SysrF) (s : State), o.idx.val = e.1 → s.active0 o.gd = true → s.me.handler = true →
    Becomes (.sysr o) s (scalarDone s.me o.d (e.2 s) 0 8)) ∧
  (∀ e ∈ handlerRows, ∀ (o : SysrF) (s : State), o.idx.val = e.1 → TrapsNow s →
    exec (.sysr o) s = .next (trapped s 0x02 s.me.pc 0)) ∧
  (∀ (o : SysrF) (s : State), NoRegister o.idx.val → TrapsNow s →
    exec (.sysr o) s = .next (trapped s (0x01 + 256 * 2) s.me.pc 0))

/-- R274, R311, R359, R360, R400, R197, R227: `sysw` stores the fields of its register and changes nothing else: a read-only
register keeps its value, `tstk` is written from handler mode only, of `specst` only ns is written, `smev`.v is cleared by a one,
an illegal field of `tshape` keeps its value, and `vtype` keeps a rounding field that is given the code 6 or 7. A head written
beyond its tail is taken as equal to it. A handler-only register is written in handler mode and takes trap 0x02 in thread mode; the
index of no register takes trap 0x01 with sub-cause 2. `srseed` is written so in a launch that neither captures nor replays.
Choices of the model it rests on are in the assumption log, entries 60, 67, 69. -/
def Obligations.SystemRegisterWritesStoreTheirFields : Prop :=
  (∀ e ∈ writeRows, ∀ (a : Reg) (gd : Guard) (s : State), s.active0 gd = true → s.inRegion = false → s.myChunk = none →
    Becomes (e.1 a gd) s (passed (e.2 s.me (s.x a)) 8)) ∧
  (∀ (o : SyswF) (s : State), o.idx.val ∈ readOnlyIndices → s.active0 o.gd = true → s.inRegion = false →
    s.myChunk = none → Becomes (.sysw o) s (passed s.me 8)) ∧
  (∀ (o : SyswOne) (s : State), s.active0 o.gd = true → s.inRegion = false → s.myChunk = none →
    let w := s.x o.a
    exec (.syswSpecst o) s = .next ((s.setMyRing { s.myRing with ns := w.getLsbD 2 }).setMe (passed s.me 8)) ∧
    (∃ v : Word, exec (.syswSmev o) s = .next ((s.setMyRing { s.myRing with smev := v }).setMe (passed s.me 8)) ∧
      v.getLsbD 63 = (s.myRing.smev.getLsbD 63 && !w.getLsbD 63) ∧ v.getLsbD 55 = w.getLsbD 55 ∧
      v.extractLsb' 56 7 = w.extractLsb' 56 7 ∧ v.extractLsb' 0 55 = s.myRing.smev.extractLsb' 0 55) ∧
    (let rows := w.toNat % 32
     let cols := w.toNat / 65536 % 256
     let sh : TShape := { rows := if 1 ≤ rows ∧ rows ≤ 16 then rows else s.me.tshape.rows
                          cols := if 1 ≤ cols ∧ cols ≤ 128 then cols else s.me.tshape.cols }
     Becomes (.syswTshape o) s (passed { s.me with tshape := sh } 8)) ∧
    (let rm := if w.toNat % 8 < 6 then w.toNat % 8 else s.me.vtype.toNat % 8
     let vt := BitVec.ofNat 64 (w.toNat / 256 % 2 * 256 + w.toNat / 16 % 4 * 16 + rm)
     let mvl := s.me.lanes * 64 / (8 * 2 ^ (w.toNat / 16 % 4))
     Becomes (.syswVtype o) s (passed { s.me with vtype := vt, vl := min s.me.vl mvl } 8)) ∧
    (Uncaptured s → Becomes (.syswSrseed o) s (passed { s.me with srseed := w } 8))) ∧
  (∀ (k : Fin 8) (o : SyswF) (s : State), o.idx.val = 0x008 + k.val → s.active0 o.gd = true → s.myChunk = none →
    Becomes (.sysw o) s (passed { s.me with vcm := withWord s.me.vcm k.val (s.x o.a) } 8)) ∧
  (∀ e ∈ handlerWriteRows, ∀ (o : SyswF) (s : State), o.idx.val = e.1 →
    (s.active0 o.gd = true → s.me.handler = true → Becomes (.sysw o) s (passed (e.2 s.me (s.x o.a)) 8)) ∧
    (TrapsNow s → exec (.sysw o) s = .next (trapped s 0x02 s.me.pc 0))) ∧
  (∀ (o : SyswF) (s : State), NoRegister o.idx.val → TrapsNow s →
    exec (.sysw o) s = .next (trapped s (0x01 + 256 * 2) s.me.pc 0)) ∧
  (∀ (o : SyswRbF) (s : State), s.active0 o.gd = true → s.inRegion = false → s.myChunk = none →
    let old := s.me.rb.get o.n
    let w := s.x o.a
    Completes (.syswRb o) s (fun t => SameMemory s t ∧
      ∃ b : Rb, t.me = passed { s.me with rb := s.me.rb.set o.n.val b o.n.isLt } 8 ∧
        b.lsz = w.toNat / 2 ^ 20 % 8 ∧ b.base = w.toNat / 2 ^ 12 % 64 ∧
        (w.getLsbD 0 = false → b.en = false) ∧
        (b.en = true → old.en = false → b.head = 0 ∧ b.tail = 0) ∧
        (b.en = true → old.en = true → b.lsz = old.lsz → b.base = old.base → b.tail = old.tail ∧
          (let head := w.toNat / 2 ^ 26 % 2 ^ 19
           b.head = if 4096 * 2 ^ b.lsz < (old.tail + 2 ^ 19 - head) % 2 ^ 19 then old.tail else head))))

/-- R361, R227, R233: `tret` in handler mode goes on in thread mode at `tepc` and restores no register (the chunks behind
the thread's start afresh on other cores, R160); `uret` in thread
mode goes on at `uepc` and clears act of `ucause`. In the other mode each is privileged: `tret` takes trap 0x02, and a trap
of the handler itself, such as `uret`, aborts the thread: its launch ends with status 2.
Choices of the model it rests on are in the assumption log, entries 38, 68. -/
def Obligations.ReturnsFromHandlersGoToTheSavedAddress : Prop :=
  (∀ s : State, s.me.handler = true → s.me.tepc.toNat % 4 = 0 →
    (∀ g k j, s.myRing.forked = some g → s.myRing.chunks = [k] → k.idx < j → j < k.idx + g.w →
      (g.slot j).val ≠ s.cur % 16) →
    Completes .tret s (fun t => t.me.handler = false ∧ t.me.pc = s.me.tepc ∧ t.me.x = s.me.x ∧ t.me.hx = s.me.hx ∧
      t.me.v = s.me.v ∧ t.me.p = s.me.p ∧ t.me.t = s.me.t ∧ t.me.fflags = s.me.fflags ∧ SameMemory s t)) ∧
  (∀ s : State, s.me.handler = false → s.me.uepc.toNat % 4 = 0 →
    Becomes .uret s { s.me with pc := s.me.uepc, ucause := s.me.ucause &&& 0xEFFFFFFFFFFFFFFF }) ∧
  (∀ s : State, TrapsNow s → exec .tret s = .next (trapped s 0x02 s.me.pc 0)) ∧
  (∀ (s : State) (th : Thread), s.me.handler = true → s.myRing.thread = some th →
    Completes .uret s (fun t =>
      (t.recd th.job th.record).st = .completing ∧ (t.recd th.job th.record).status = 2))

/-! ### Vectors -/

/-- R368, R370: `setvl` takes the working lanes as the lane count, cuts the request to the `mvl` they give and writes `vl`
to x(d); `setvt` writes `vtype`, cuts `vl` to the new `mvl` and writes that to x(d). `vloop` begins a strip loop, or skips
it when there is nothing to do; `vlend` begins the next strip or ends the loop. -/
def Obligations.VectorConfigurationAndStripLoops : Prop :=
  ∀ (s : State),
    (∀ o : SetF, s.active0 o.gd = true →
      let w := if o.a.val = 0 then o.imm.setWidth 64 else s.x o.a
      (let n := min w.toNat (s.me.working * 64 / s.me.ew)
       Becomes (.setvl o) s (scalarDone { s.me with lanes := s.me.working, vl := n } o.d (BitVec.ofNat 64 n) 0 12)) ∧
      (let rm := if w.toNat % 8 < 6 then w.toNat % 8 else s.me.vtype.toNat % 8
       let vt := BitVec.ofNat 64 (w.toNat / 256 % 2 * 256 + w.toNat / 16 % 4 * 16 + rm)
       let mvl := s.me.lanes * 64 / (8 * 2 ^ (w.toNat / 16 % 4))
       Becomes (.setvt o) s
         (scalarDone { s.me with vtype := vt, vl := min s.me.vl mvl } o.d (BitVec.ofNat 64 mvl) 0 12))) ∧
    (∀ o : SetF, s.active0 o.gd = true → 0 < o.imm.toInt →
      let rem := (s.x o.a).toNat
      let exit := s.me.pc + 4 * o.imm.signExtend 64 + 12
      let n := min rem (s.me.lanes * 64 / s.me.ew)
      (rem = 0 → Becomes (.vloop o) s { ({ s.me with
        strip := { act := false, start := s.me.pc + 12, exit := exit, rem := 0, done := 0, slen := s.me.strip.slen, ix := o.d }
        vl := 0 }.setX o.d 0) with pc := exit }) ∧
      (rem ≠ 0 → Becomes (.vloop o) s { ({ s.me with
        strip := { act := true, start := s.me.pc + 12, exit := exit, rem := rem, done := 0, slen := n, ix := o.d }
        vl := n }.setX o.d 0) with pc := s.me.pc + 12 })) ∧
    (∀ o : OnlyGuard, s.active0 o.gd = true →
      let t := s.me.strip
      let done := t.done + t.slen
      let rem := t.rem - t.slen
      let n := min rem (s.me.lanes * 64 / s.me.ew)
      (t.act = false → Becomes (.vlend o) s (passed s.me 12)) ∧
      (t.act = true → rem = 0 →
        Becomes (.vlend o) s (passed { s.me with strip := { t with act := false, done := done, rem := 0 } } 12)) ∧
      (t.act = true → rem ≠ 0 →
        Becomes (.vlend o) s { ({ s.me with
          strip := { t with done := done, rem := rem, slen := n }, vl := n }.setX t.ix (BitVec.ofNat 64 done)) with
            pc := t.start })) ∧
    (∀ o : SetF, TrapsNow s → o.imm.toInt ≤ 0 → exec (.vloop o) s = .next (trapped s 0x11 s.me.pc 0))

/-- R373, R374: the vector integer functions, with B a vector, a scalar or an immediate. Active elements below `vl` take
the result of the table cut to the type; the others keep their value; `fflags` gains the flags. -/
def Obligations.VectorIntegerFunctionsWriteActiveElements : Prop :=
  (∀ e ∈ vectorIntegerRows, ∀ (s : State),
    (∀ o : VVV, o.ty.isInt = true → o.ty.width = s.me.ew →
      ElementsWritten (e.1 o) s o.d o.ty.width 8 o.gd (fun i => elementResult e.2.2.2 o.ty
        (valueIn o.ty (element (s.me.v.get o.a) o.ty.width i)) (valueIn o.ty (element (s.me.v.get o.b) o.ty.width i)))) ∧
    (∀ o : VVX, o.ty.isInt = true → o.ty.width = s.me.ew →
      ElementsWritten (e.2.1 o) s o.d o.ty.width 8 o.gd (fun i => elementResult e.2.2.2 o.ty
        (valueIn o.ty (element (s.me.v.get o.a) o.ty.width i)) (source o.ty (s.x o.b)))) ∧
    (∀ o : VVI, o.ty.isInt = true → o.ty.width = s.me.ew →
      ElementsWritten (e.2.2.1 o) s o.d o.ty.width 12 o.gd (fun i => elementResult e.2.2.2 o.ty
        (valueIn o.ty (element (s.me.v.get o.a) o.ty.width i)) (source o.ty (o.imm.signExtend 64))))) ∧
  (∀ e ∈ vectorUnaryRows, ∀ (s : State) (o : VV), o.ty.isInt = true → o.ty.width = s.me.ew →
    ElementsWritten (e.1 o) s o.d o.ty.width 8 o.gd (fun i => elementResult e.2 o.ty
      (valueIn o.ty (element (s.me.v.get o.a) o.ty.width i)) 0))

/-- R374: `vsel` copies the bit pattern of A where the predicate's bit is set and that of B where it is not; its predicate
field names `p0` to `p15`, and any other takes trap 0x11 (R364). -/
def Obligations.VectorSelectCopiesByPredicate : Prop :=
  (∀ (s : State) (o : VVVP) (h : o.c.val < 16), o.ty.width = s.me.ew →
    ElementsWritten (.vsel o) s o.d o.ty.width 8 o.gd (fun i =>
      { bits := if (s.me.getP ⟨o.c.val, h⟩).getLsbD i then element (s.me.v.get o.a) o.ty.width i
          else element (s.me.v.get o.b) o.ty.width i, fl := 0 })) ∧
  (∀ (s : State) (o : VVXP) (h : o.c.val < 16), o.ty.width = s.me.ew →
    ElementsWritten (.vselScalar o) s o.d o.ty.width 8 o.gd (fun i =>
      { bits := if (s.me.getP ⟨o.c.val, h⟩).getLsbD i then element (s.me.v.get o.a) o.ty.width i
          else low s o.b o.ty.width, fl := 0 })) ∧
  (∀ (s : State) (o : VVIP) (h : o.c.val < 16), o.ty.width = s.me.ew →
    ElementsWritten (.vselImm o) s o.d o.ty.width 12 o.gd (fun i =>
      { bits := if (s.me.getP ⟨o.c.val, h⟩).getLsbD i then element (s.me.v.get o.a) o.ty.width i
          else (o.imm.signExtend 64).toNat % 2 ^ o.ty.width, fl := 0 })) ∧
  (∀ (s : State) (o : VVVP), 16 ≤ o.c.val → TrapsNow s → exec (.vsel o) s = .next (trapped s 0x11 s.me.pc 0))

/-- R376, R279, R335: the vector floating-point functions, rounded in the mode the code names and flushed as `vtype` says;
the sign operations set no flag.
Choices of the model it rests on are in the assumption log, entries 70, 71. -/
def Obligations.VectorFloatFunctionsWriteActiveElements : Prop :=
  (∀ e ∈ vectorFloatRows, ∀ (s : State),
    (∀ o : FVVV, o.ty.width = s.me.ew →
      ElementsWritten (e.1 o) s o.d o.ty.width 8 o.gd (fun i => e.2.2 (vectorRounding s.me o.ty o.rm)
        (element (s.me.v.get o.a) o.ty.width i) (element (s.me.v.get o.b) o.ty.width i))) ∧
    (∀ o : FVVX, o.ty.width = s.me.ew →
      ElementsWritten (e.2.1 o) s o.d o.ty.width 8 o.gd (fun i => e.2.2 (vectorRounding s.me o.ty o.rm)
        (element (s.me.v.get o.a) o.ty.width i) (low s o.b o.ty.width)))) ∧
  (∀ e ∈ vectorFusedRows, ∀ (s : State),
    (∀ o : FVVVV, o.ty.width = s.me.ew →
      ElementsWritten (e.1 o) s o.d o.ty.width 8 o.gd (fun i => fpFma (vectorRounding s.me o.ty o.rm) e.2.2.1 e.2.2.2
        (element (s.me.v.get o.a) o.ty.width i) (element (s.me.v.get o.b) o.ty.width i)
        (element (s.me.v.get o.c) o.ty.width i))) ∧
    (∀ o : FVVXV, o.ty.width = s.me.ew →
      ElementsWritten (e.2.1 o) s o.d o.ty.width 8 o.gd (fun i => fpFma (vectorRounding s.me o.ty o.rm) e.2.2.1 e.2.2.2
        (element (s.me.v.get o.a) o.ty.width i) (low s o.b o.ty.width) (element (s.me.v.get o.c) o.ty.width i)))) ∧
  (∀ (s : State) (o : FVV), o.ty.width = s.me.ew →
    ElementsWritten (.vfsqrt o) s o.d o.ty.width 8 o.gd (fun i =>
      fpSqrt (vectorRounding s.me o.ty o.rm) (element (s.me.v.get o.a) o.ty.width i)) ∧
    ElementsWritten (.vfabs o) s o.d o.ty.width 8 o.gd (fun i =>
      { bits := fpSgn 3 (fmtOf o.ty) (element (s.me.v.get o.a) o.ty.width i) 0, fl := 0 }) ∧
    ElementsWritten (.vfneg o) s o.d o.ty.width 8 o.gd (fun i =>
      { bits := fpSgn 2 (fmtOf o.ty) (element (s.me.v.get o.a) o.ty.width i) 0, fl := 0 })) ∧
  (∀ (s : State) (o : FVSgn), o.ty.width = s.me.ew →
    ElementsWritten (.vfsgn o) s o.d o.ty.width 8 o.gd (fun i =>
      { bits := fpSgn o.sub (fmtOf o.ty) (element (s.me.v.get o.a) o.ty.width i)
          (element (s.me.v.get o.b) o.ty.width i), fl := 0 })) ∧
  (∀ (s : State) (o : FVSgnX), o.ty.width = s.me.ew →
    ElementsWritten (.vfsgnScalar o) s o.d o.ty.width 8 o.gd (fun i =>
      { bits := fpSgn o.sub (fmtOf o.ty) (element (s.me.v.get o.a) o.ty.width i) (low s o.b o.ty.width), fl := 0 }))

/-- R377, R378: compares and `vfclass` write the active bits of a predicate; the predicate functions combine predicates
bit by bit, `pset` sets the bits below x(a); `pfirst` gives the lowest marked active element, or `vl`, and `pcount` their
number. -/
def Obligations.ComparesAndPredicatesWriteActiveBits : Prop :=
  (∀ e ∈ vectorCompareRows, ∀ (s : State) (o : VCmp) (h : o.d.val < 16), o.ty.width = s.me.ew →
    let a (i : Nat) := element (s.me.v.get o.a) o.ty.width i
    let b (i : Nat) := if o.xb then low s o.b o.ty.width else element (s.me.v.get o.b) o.ty.width i
    let r (i : Nat) : Bool × BitVec 5 :=
      if o.ty.isInt then (compareInts e.2 (valueIn o.ty (a i)) (valueIn o.ty (b i)), 0)
      else fpCmp e.2 (s.me.vtype.getLsbD 8) (fmtOf o.ty) (a i) (b i)
    BitsWritten (e.1 o) s ⟨o.d.val, h⟩ o.gd (fun i => (r i).1) (fun i => (r i).2)) ∧
  (∀ (s : State) (o : VVX) (h : o.d.val < 16), o.ty.width = s.me.ew →
    BitsWritten (.vfclass o) s ⟨o.d.val, h⟩ o.gd (fun i =>
      fpClass (fmtOf o.ty) (element (s.me.v.get o.a) o.ty.width i) &&& ((s.x o.b).toNat % 1024) != 0) (fun _ => 0)) ∧
  (∀ e ∈ ([(.pand, fun a b => a && b), (.por, fun a b => a || b), (.pxor, fun a b => xor a b),
      (.pandn, fun a b => a && !b)] : List ((PPP → Instr) × (Bool → Bool → Bool))),
    ∀ (s : State) (o : PPP) (hd : o.d.val < 16) (ha : o.a.val < 16) (hb : o.b.val < 16),
    BitsWritten (e.1 o) s ⟨o.d.val, hd⟩ o.gd (fun i =>
      e.2 ((s.me.getP ⟨o.a.val, ha⟩).getLsbD i) ((s.me.getP ⟨o.b.val, hb⟩).getLsbD i)) (fun _ => 0)) ∧
  (∀ (s : State) (o : PP) (hd : o.d.val < 16) (ha : o.a.val < 16),
    BitsWritten (.pnot o) s ⟨o.d.val, hd⟩ o.gd (fun i => !(s.me.getP ⟨o.a.val, ha⟩).getLsbD i) (fun _ => 0) ∧
    BitsWritten (.pmov o) s ⟨o.d.val, hd⟩ o.gd (fun i => (s.me.getP ⟨o.a.val, ha⟩).getLsbD i) (fun _ => 0)) ∧
  (∀ (s : State) (o : PP) (hd : o.d.val < 16),
    BitsWritten (.pset o) s ⟨o.d.val, hd⟩ o.gd (fun i => decide (i < (s.x o.a).toNat)) (fun _ => 0)) ∧
  (∀ (s : State) (o : PP) (ha : o.a.val < 16),
    let marked := (activeList s.me o.gd).filter (fun i => (s.me.getP ⟨o.a.val, ha⟩).getLsbD i)
    Becomes (.pfirst o) s (scalarDone s.me o.d (BitVec.ofNat 64 (marked.headD s.me.vl)) 0 8) ∧
    Becomes (.pcount o) s (scalarDone s.me o.d (BitVec.ofNat 64 marked.length) 0 8))

/-- R379: the permutes. An index at or past `vl` gives 0; `vslideup` leaves the elements below its distance; `vcompress`
packs the active elements from element 0 and `vexpand` takes them in order; `vextr` always writes x(d), 0 for an inactive
element; `vins` writes one active element. -/
def Obligations.PermutesMoveElements : Prop :=
  (∀ (s : State) (o : VVV), o.ty.width = s.me.ew →
    ElementsWritten (.vperm o) s o.d o.ty.width 8 o.gd (fun i =>
      let j := element (s.me.v.get o.b) o.ty.width i
      { bits := if j < s.me.vl then element (s.me.v.get o.a) o.ty.width j else 0, fl := 0 })) ∧
  (∀ (s : State) (o : XX), o.ty.width = s.me.ew →
    ElementsWritten (.vbcast o) s o.d o.ty.width 8 o.gd (fun _ => { bits := low s o.a o.ty.width, fl := 0 })) ∧
  (∀ (s : State) (o : VVX), o.ty.width = s.me.ew →
    ElementsWritten (.vslideup o) s o.d o.ty.width 8 o.gd (fun i =>
      { bits := if (s.x o.b).toNat ≤ i then element (s.me.v.get o.a) o.ty.width (i - (s.x o.b).toNat)
          else element (s.me.v.get o.d) o.ty.width i, fl := 0 })) ∧
  (∀ (s : State) (o : VVX), o.ty.width = s.me.ew →
    ElementsWritten (.vslidedn o) s o.d o.ty.width 8 o.gd (fun i =>
      { bits := if i + (s.x o.b).toNat < s.me.vl then element (s.me.v.get o.a) o.ty.width (i + (s.x o.b).toNat) else 0
        fl := 0 })) ∧
  (∀ (s : State) (o : VV), o.ty.width = s.me.ew →
    ElementsWritten (.vrev o) s o.d o.ty.width 8 o.gd (fun i =>
      { bits := element (s.me.v.get o.a) o.ty.width (s.me.vl - 1 - i), fl := 0 })) ∧
  (∀ (s : State) (o : VV), o.ty.width = s.me.ew →
    let order := activeList s.me o.gd
    let all : Guard := { g := 0, gn := false }
    (∃ v, Written { s.me with vl := order.length } all o.ty.width (s.me.v.get o.d) v
        (fun k => element (s.me.v.get o.a) o.ty.width (order.getD k 0)) ∧
      Becomes (.vcompress o) s (passed { s.me with v := s.me.v.set o.d.val v o.d.isLt } 8)) ∧
    ElementsWritten (.vexpand o) s o.d o.ty.width 8 o.gd (fun i =>
      { bits := element (s.me.v.get o.a) o.ty.width (order.idxOf i), fl := 0 })) ∧
  (∀ (s : State) (o : VVX), o.ty.width = s.me.ew →
    let n := (s.x o.b).toNat
    Becomes (.vextr o) s (scalarDone s.me o.d
      (if n < s.me.vl ∧ s.me.active o.gd n = true
       then widened o.ty (BitVec.ofNat o.ty.width (element (s.me.v.get o.a) o.ty.width n)) else 0) 0 8)) ∧
  (∀ (s : State) (o : XXX), o.ty.width = s.me.ew →
    ElementsWritten (.vins o) s o.d o.ty.width 8 o.gd (fun i =>
      { bits := if i = (s.x o.b).toNat then low s o.a o.ty.width else element (s.me.v.get o.d) o.ty.width i, fl := 0 }))

/-- R290, R381, R382: reductions. The ordered form folds the active elements from the initial value in ascending order;
the tree form combines them, with the identity in place of the others, over a power of two of leaves, and then combines the
initial value with the result. With no active element the result is the initial value.
Choices of the model it rests on are in the assumption log, entry 73. -/
def Obligations.ReductionsFollowTheirOrder : Prop :=
  (∀ (o : VRed) (s : State), o.ty.width = s.me.ew →
    let e : RedEnv := { op := .sum, ty := o.ty, env := vectorRounding s.me o.ty o.rm }
    let init : FRes := { bits := low s o.b o.ty.width, fl := 0 }
    let r := (activeList s.me o.gd).foldl
      (fun a i => gatherStep e a { bits := element (s.me.v.get o.a) o.ty.width i, fl := 0 }) init
    r.fl &&& s.me.tren = 0 →
      Becomes (.vredoSum o) s (scalarDone s.me o.d (widened o.ty (BitVec.ofNat o.ty.width r.bits)) r.fl 8)) ∧
  (∀ row ∈ treeRows, ∀ (o : VRed) (s : State) (k : Nat), o.ty.width = s.me.ew → s.me.vl ≤ 2 ^ k → k ≤ 10 →
    (k = 0 ∨ 2 ^ (k - 1) < s.me.vl) →
    let e : RedEnv := { op := row.2, ty := o.ty, env := vectorRounding s.me o.ty o.rm }
    let init : FRes := { bits := low s o.b o.ty.width, fl := 0 }
    let leaf (i : Nat) : FRes :=
      { bits := if i < s.me.vl ∧ s.me.active o.gd i = true then element (s.me.v.get o.a) o.ty.width i else e.identity
        fl := 0 }
    let r := if activeList s.me o.gd = [] then init else gatherStep e init (treeOver (gatherStep e) k leaf)
    r.fl &&& s.me.tren = 0 →
      Becomes (row.1 o) s (scalarDone s.me o.d (widened o.ty (BitVec.ofNat o.ty.width r.bits)) r.fl 8))

/-- R383: the rescaled reductions. Of n active elements the p whose valid bit is set are summed in order; `vreds.sum` adds
n / p times that sum to the initial value, exactly and rounded once, `vreds.mean` divides it by p; with none valid the
result is the initial value and no flag is set. -/
def Obligations.RescaledReductionsUseValidElements : Prop :=
  ∀ (o : VRedS) (s : State), o.ty.width = s.me.ew →
    let w := o.ty.width
    let env := vectorRounding s.me o.ty o.rm
    let e : RedEnv := { op := .sum, ty := o.ty, env := env }
    let act := activeList s.me o.gd
    let valid := act.filter (fun i => (s.x o.c).getLsbD (8 * o.grp.val + w * i / 512))
    let sum := valid.foldl (fun a i => gatherStep e a { bits := element (s.me.v.get o.a) w i, fl := 0 })
      { bits := e.identity, fl := 0 }
    let v := env.f.value sum.bits
    let init := low s o.b w
    let total := (({} : Acc).add (env.src init) |>.add (v.scaleBy act.length valid.length)).round env
    let mean := match v.scaleBy 1 valid.length with
      | .fin sg a d => env.fin sg a d
      | v => cvtVal env v
    (valid = [] →
      Becomes (.vredsSum o) s (scalarDone s.me o.d (BitVec.ofNat 64 init) 0 8) ∧
      Becomes (.vredsMean o) s (scalarDone s.me o.d (BitVec.ofNat 64 init) 0 8)) ∧
    (valid ≠ [] →
      ((sum.fl ||| total.fl) &&& s.me.tren = 0 →
        Becomes (.vredsSum o) s (scalarDone s.me o.d (BitVec.ofNat 64 total.bits) (sum.fl ||| total.fl) 8)) ∧
      ((sum.fl ||| mean.fl) &&& s.me.tren = 0 →
        Becomes (.vredsMean o) s (scalarDone s.me o.d (BitVec.ofNat 64 mean.bits) (sum.fl ||| mean.fl) 8)))

/-- R384: segmented scans and reductions. A segment starts at the first active element and at every active element whose
flag is set; within it the result runs on from the identity. A scan writes the running result at each active element; a
reduction packs the last result of each segment from element 0. -/
def Obligations.SegmentedInstructionsRestartAtFlags : Prop :=
  ∀ row ∈ ([(.vsscanSum, .vsredSum, .sum), (.vsscanMax, .vsredMax, .max)] :
      List ((VRed → Instr) × (VRed → Instr) × RedOp)),
    ∀ (o : VRed) (s : State) (h : o.b.val < 16), o.ty.width = s.me.ew →
    let w := o.ty.width
    let e : RedEnv := { op := row.2.2, ty := o.ty, env := vectorRounding s.me o.ty o.rm }
    let act := activeList s.me o.gd
    let starts (i : Nat) : Bool := act.head? == some i || (s.me.getP ⟨o.b.val, h⟩).getLsbD i
    let segment (i : Nat) : Nat := (act.filter (fun j => j ≤ i && starts j)).length - 1
    let before (i : Nat) : Nat := (act.filter (fun j => j < i && segment j == segment i)).foldl
      (fun a j => (e.step a (element (s.me.v.get o.a) w j)).bits) e.identity
    let running (i : Nat) : FRes := e.step (before i) (element (s.me.v.get o.a) w i)
    let fl := flagsOver s.me o.gd (fun i => (running i).fl)
    fl &&& s.me.tren = 0 →
    (∃ v, Written s.me o.gd w (s.me.v.get o.d) v (fun i => (running i).bits) ∧
      Becomes (row.1 o) s { s.me with
        v := s.me.v.set o.d.val v o.d.isLt, pc := s.me.pc + 8, fflags := s.me.fflags ||| fl }) ∧
    (∃ v, Written { s.me with vl := (act.filter starts).length } { g := 0, gn := false } w (s.me.v.get o.d) v
        (fun k => (running ((act.filter (fun i => segment i == k)).getLastD 0)).bits) ∧
      Becomes (row.2.1 o) s { s.me with
        v := s.me.v.set o.d.val v o.d.isLt, pc := s.me.pc + 8, fflags := s.me.fflags ||| fl })

/-- R362, R385, R386, R387, R388, R286, R287: vector conversions. The wider type has the width of `vtype`; an integer source is
narrowed by wrapping or saturating, a block source is its element times its scale, a NaN becomes the default NaN, and a narrowing
conversion may round stochastically with the element's index. `vquant` writes its active elements into v(d), one scale byte for each
block with an active element into v(d + 1), and adds the flags of both; every other bit is as it was.
Choices of the model it rests on are in the assumption log, entries 72, 98. -/
def Obligations.VectorConversionsWriteActiveElements : Prop :=
  (∀ (o : VCvt) (s : State), (o.src.isBlock = true → o.a.val % 2 = 0) → max o.ty.width o.src.width = s.me.ew →
    let narrow := RndUse.ofCvt o.src o.ty == .narrowing
    ElementsWritten (.vcvt o) s o.d o.ty.width 8 o.gd (fun i =>
      let b := element (s.me.v.get o.a) o.src.width i
      let env : FEnv := { f := fmtOf o.ty, mode := roundingMode (s.me.vtype.toNat % 8) o.rm narrow
                          fz := s.me.vtype.getLsbD 8, rnd := s.me.random i b }
      if o.src.isInt then cvtII o.ty o.sat (valueIn o.src b)
      else if o.src.isBlock then cvtVal env (s.me.blockSource o i b)
      else cvtVal env ((fmtOf o.src).value (flushSrc (s.me.vtype.getLsbD 8) (fmtOf o.src) b)))) ∧
  (∀ (o : VCvt2) (s : State), max o.ty.width o.src.width = s.me.ew →
    ElementsWritten (.vcvti o) s o.d o.ty.width 8 o.gd (fun i =>
      let b := element (s.me.v.get o.a) o.src.width i
      cvtFI o.ty (roundingMode (s.me.vtype.toNat % 8) o.rm false)
        ((fmtOf o.src).value (flushSrc (s.me.vtype.getLsbD 8) (fmtOf o.src) b))) ∧
    ElementsWritten (.vicvt o) s o.d o.ty.width 8 o.gd (fun i =>
      cvtIF (vectorRounding s.me o.ty o.rm) (valueIn o.src (element (s.me.v.get o.a) o.src.width i)))) ∧
  (∀ (o : VQnt) (s : State) (h : o.d.val + 1 < 64), o.d.val % 2 = 0 → max o.ty.width o.src.width = s.me.ew →
    s.me.vl * o.src.width ≤ 4096 → 4 ≤ o.ty.width → o.ty.width ≤ o.src.width →
    let size := if o.ty = .fb4 then 8 else 32
    let value (b : Nat) := (fmtOf o.src).value (flushSrc (s.me.vtype.getLsbD 8) (fmtOf o.src) b)
    let block (k : Nat) := quantBlock s.me o (((activeList s.me o.gd).filter (fun i => i / size == k)).map
      (fun i => (i, element (s.me.v.get o.a) o.src.width i, value (element (s.me.v.get o.a) o.src.width i))))
    let used (k : Nat) : Prop := ∃ i ∈ activeList s.me o.gd, i / size = k
    let cell (i : Nat) : FRes := (((block (i / size)).elems.find? (fun e => e.i == i)).map (·.r)).getD ⟨0, 0⟩
    let fl := flagsOver s.me o.gd (fun i => (cell i).fl ||| (block (i / size)).fl)
    fl &&& s.me.tren = 0 →
    ∃ v v',
      Written s.me o.gd o.ty.width (s.me.v.get o.d) v (fun i => (cell i).bits) ∧
      (∀ k < 512, (used k → element v' 8 k = (block k).scale % 256) ∧
        (¬ used k → element v' 8 k = element (s.me.v.get ⟨o.d.val + 1, h⟩) 8 k)) ∧
      Becomes (.vquant o) s { s.me with
        v := (s.me.v.set o.d.val v o.d.isLt).set (o.d.val + 1) v' h, pc := s.me.pc + 8, fflags := s.me.fflags ||| fl })

/-- R390, R392, R394, R398: vector loads of the own scratchpad: contiguous, strided, indexed, first-fault with no fault,
and transposed, whose row j becomes column j of the register group. -/
def Obligations.VectorLoadsFillActiveElements : Prop :=
  (∀ (s : State) (o : VLdF),
    let va := stridedAddress (s.x o.a + o.imm.signExtend 64) (BitVec.ofNat 64 (o.ty.width / 8))
    LoadsElements (.vld o) s o.d o.ty.width 12 o.gd va ∧ LoadsElements (.vldff o) s o.d o.ty.width 12 o.gd va) ∧
  (∀ (s : State) (o : VLdsF),
    LoadsElements (.vlds o) s o.d o.ty.width 12 o.gd (stridedAddress (s.x o.a + o.imm.signExtend 64) (s.x o.b))) ∧
  (∀ (s : State) (o : VGathF),
    LoadsElements (.vgath o) s o.d o.ty.width 8 o.gd (indexedAddress s o.a o.b o.ty.width)) ∧
  (∀ (s : State) (o : VLdsF), o.d.val % 8 = 0 → o.ty.width ∈ [4, 8, 16, 32, 64] → s.me.vcm = 0 →
    let w := o.ty.width
    let n := max 1 (w / 8)
    let row := stridedAddress (s.x o.a + o.imm.signExtend 64) (s.x o.b)
    (∀ j < 128, s.me.active o.gd j = true → ∀ m < 32 / n, OnOwnPad s (row j + n * m) n) →
    ∃ vs : Vector (BitVec 4096) 64,
      (∀ r : Reg, r.val / 8 ≠ o.d.val / 8 → vs.get r = s.me.v.get r) ∧
      (∀ r : Reg, r.val / 8 = o.d.val / 8 → ∀ i < 4096 / w,
        let at_ := r.val % 8 * (4096 / w) + i
        let j := at_ % 128
        element (vs.get r) w i = if s.me.active o.gd j then Memory.readN s.mem (row j) 32 / 2 ^ (w * (at_ / 128)) % 2 ^ w
          else element (s.me.v.get r) w i) ∧
      Becomes (.vldt o) s (passed { s.me with v := vs } 12))

/-- R390, R392: vector stores to the own scratchpad: contiguous, strided and indexed. Active elements are stored in
ascending order, and nothing else changes. -/
def Obligations.VectorStoresWriteOnlyActiveElements : Prop :=
  (∀ (s : State) (o : VStF),
    StoresElements (.vst o) s o.b o.ty.width 12 o.gd
      (stridedAddress (s.x o.a + o.imm.signExtend 64) (BitVec.ofNat 64 (o.ty.width / 8)))) ∧
  (∀ (s : State) (o : VStsF),
    StoresElements (.vsts o) s o.b o.ty.width 12 o.gd (stridedAddress (s.x o.a + o.imm.signExtend 64) (s.x o.c))) ∧
  (∀ (s : State) (o : VScatF),
    StoresElements (.vscat o) s o.b o.ty.width 8 o.gd (indexedAddress s o.a o.c o.ty.width))

/-- R231, R236, R237, R362, R230: how vector instructions trap. A type whose width is not that of `vtype` takes trap 0x11;
an enabled flag traps 0x0D after every element is written, `tmask` marking the elements that set it; a gather, some of
whose elements lie past the scratchpad, performs the others, marks in `vcm` which are done, and takes trap 0x06 for the
lowest that fault.
Choices of the model it rests on are in the assumption log, entry 74. -/
def Obligations.VectorTrapsKeepTheElementsDone : Prop :=
  (∀ e ∈ vectorIntegerRows, ∀ (s : State) (o : VVV), TrapsNow s → o.ty.width ≠ s.me.ew →
    exec (e.1 o) s = .next (trapped s 0x11 s.me.pc 0)) ∧
  (∀ e ∈ vectorIntegerRows, ∀ (s : State) (o : VVV), TrapsNow s → o.ty.isInt = true → o.ty.width = s.me.ew →
    let r (i : Nat) := elementResult e.2.2.2 o.ty (valueIn o.ty (element (s.me.v.get o.a) o.ty.width i))
      (valueIn o.ty (element (s.me.v.get o.b) o.ty.width i))
    let fl := flagsOver s.me o.gd (fun i => (r i).fl)
    fl &&& s.me.tren ≠ 0 →
      ∃ v, ∃ m : BitVec 512, Written s.me o.gd o.ty.width (s.me.v.get o.d) v (fun i => (r i).bits) ∧
        (∀ i < 512, m.getLsbD i = true ↔ (i < s.me.vl ∧ s.me.active o.gd i = true ∧ (r i).fl &&& s.me.tren ≠ 0)) ∧
        exec (e.1 o) s = .next (trapped
          (s.setMe { s.me with
            v := s.me.v.set o.d.val v o.d.isLt, pc := s.me.pc + 8, fflags := s.me.fflags ||| fl, tmask := m })
          0x0D (s.me.pc + 8) s.me.pc)) ∧
  (∀ (s : State) (o : VGathF) (least : Nat), TrapsNow s → o.ty.width = s.me.ew → s.me.vcm = 0 →
    (Table.get s.frq (s.cur / 128) {}).en = false →
    let w := o.ty.width
    let va := indexedAddress s o.a o.b w
    let bad (i : Nat) : Prop := va i / 2 ^ 32 = 0xFE * 2 ^ 24 + s.cur ∧ va i % (w / 8) = 0 ∧ 0x60000 < va i % 2 ^ 32 + w / 8
    let act (i : Nat) : Prop := i < s.me.vl ∧ s.me.active o.gd i = true
    s.cur < 4096 → s.me.regions = [] → s.myRing.chunks = [] →
    (∀ i, act i → OnOwnPad s (va i) (w / 8) ∨ bad i) → act least → bad least →
    (∀ i < least, act i → ¬ bad i) →
    ∃ v, ∃ m : BitVec 512,
      (∀ i, act i → ¬ bad i → w * i + w ≤ 4096 → element v w i = Memory.readN s.mem (va i) (w / 8)) ∧
      (∀ i < 512, m.getLsbD i = true ↔ ¬ (act i ∧ bad i)) ∧
      exec (.vgath o) s = .next (trapped (s.setMe { s.me with v := s.me.v.set o.d.val v o.d.isLt, vcm := m })
        (0x06 + 65536 * 7) s.me.pc (BitVec.ofNat 64 (va least))))

/-! ### Matrix -/

/-- R401, R402, R409: `matt` releases the core's slabs, requests x(a) and takes free slabs of its quad, as many as it can,
none of them held elsewhere, and writes their number to x(d); `mdet` releases them; both discard staging. `mzero` writes
zeros to the columns in use of the active rows. More than 8 slabs take trap 0x11.
Choices of the model it rests on are in the assumption log, entry 76. -/
def Obligations.SlabsAreExclusiveWithinAQuad : Prop :=
  (∀ (o : MAttF) (s : State), s.active0 o.gd = true → s.myChunk = none → (s.x o.a).toNat ≤ 8 →
    ∃ m : BitVec 8, m &&& slabsElsewhere s = 0 ∧
      ones m = min (s.x o.a).toNat (8 - ones (slabsElsewhere s)) ∧
      Becomes (.matt o) s (scalarDone { unstaged s.me with mreq := (s.x o.a).toNat, mslabs := m } o.d
        (BitVec.ofNat 64 (ones m)) 0 8)) ∧
  (∀ (o : MDetF) (s : State), s.active0 o.gd = true → s.myChunk = none →
    Becomes (.mdet o) s (passed { unstaged s.me with mreq := 0, mslabs := 0 } 8)) ∧
  (∀ (o : MAttF) (s : State), TrapsNow s → 8 < (s.x o.a).toNat → exec (.matt o) s = .next (trapped s 0x11 s.me.pc 0)) ∧
  (∀ (o : MZeroF) (s : State) (h : o.d.val < 4), ShapeLegal s.me →
    ∃ t : BitVec 131072,
      (∀ r < 16, ∀ j < 128,
        (RowActive s.me o.gd r ∧ j < s.me.tshape.cols → container t r j = 0) ∧
        (¬ (RowActive s.me o.gd r ∧ j < s.me.tshape.cols) →
          container t r j = container (s.me.t.get ⟨o.d.val, h⟩) r j)) ∧
      Becomes (.mzero o) s (passed { unstaged s.me with t := s.me.t.set o.d.val t h } 8))

/-- R289, R404 to R407: multiply–accumulate. With a slab held, every element of C in use is the exact sum of its old value
and its products, rounded once; B comes from a register group or, row by row, from memory, here from the own scratchpad;
the block forms scale the elements. With no slab held it takes trap 0x12, and with no active row `mmam` only advances, what
another instruction has staged being discarded (R412). -/
def Obligations.MatrixProductsAccumulateIntoTiles : Prop :=
  (∀ (o : MmaF) (s : State) (h : o.d.val < 4) (b : BitVec 32768), o.b.val % 8 = 0 → 0 < s.me.slabs →
    (∀ q : Fin 8, b.extractLsb' (4096 * q.val) 4096 = s.me.v.get (Fin.ofNat 64 (o.b.val + q.val))) →
    Accumulates (.mma o) s ⟨o.d.val, h⟩ o.w o.rm o.gd 8
      { ty := o.ty, a := s.me.v.get o.a, b := b, fz := s.me.vtype.getLsbD 8 }) ∧
  (∀ (o : MmaBF) (s : State) (h : o.f.d.val < 4) (b : BitVec 32768), o.f.b.val % 8 = 0 → 0 < s.me.slabs →
    (o.f.ty = .fb4 → o.s.sb.val % 2 = 0) →
    (∀ q : Fin 8, b.extractLsb' (4096 * q.val) 4096 = s.me.v.get (Fin.ofNat 64 (o.f.b.val + q.val))) →
    Accumulates (.mmaBlock o) s ⟨o.f.d.val, h⟩ o.f.w o.f.rm o.f.gd 16 (mmaInB s.me o.f.ty o.f.a b o.s)) ∧
  (∀ (o : MmamF) (s : State) (h : o.d.val < 4) (b : BitVec 32768), 0 < s.me.slabs → s.me.tpAct = false →
    o.ty.width ∈ [4, 8, 16, 32, 64] → (∃ r < 16, RowActive s.me o.gd r) →
    let w := o.ty.width
    let addr := stridedAddress (s.x o.b) (s.x o.c)
    (∀ k < 256 / w, SpanOnPad s (addr k) (16 * w) ∧
      (b.extractLsb' (128 * w * k) (128 * w)).toNat = Memory.readN s.mem (addr k) (16 * w)) →
    Accumulates (.mmam o) s ⟨o.d.val, h⟩ o.w o.rm o.gd 8
      { ty := o.ty, a := s.me.v.get o.a, b := b, fz := s.me.vtype.getLsbD 8 }) ∧
  (∀ (o : MmamBF) (s : State) (h : o.f.d.val < 4) (b : BitVec 32768), 0 < s.me.slabs → s.me.tpAct = false →
    (o.f.ty = .fb4 → o.s.sb.val % 2 = 0) → o.f.ty.width ∈ [4, 8, 16, 32, 64] → (∃ r < 16, RowActive s.me o.f.gd r) →
    let w := o.f.ty.width
    let addr := stridedAddress (s.x o.f.b) (s.x o.f.c)
    (∀ k < 256 / w, SpanOnPad s (addr k) (16 * w) ∧
      (b.extractLsb' (128 * w * k) (128 * w)).toNat = Memory.readN s.mem (addr k) (16 * w)) →
    Accumulates (.mmamBlock o) s ⟨o.f.d.val, h⟩ o.f.w o.f.rm o.f.gd 16 (mmaInB s.me o.f.ty o.f.a b o.s)) ∧
  (∀ (o : MmaF) (s : State), TrapsNow s → o.d.val < 4 → o.b.val % 8 = 0 → s.me.mslabs = 0 →
    exec (.mma o) s = .next (trapped s 0x12 s.me.pc 0)) ∧
  (∀ (o : MmamF) (s : State), o.d.val < 4 → 0 < s.me.slabs → (∀ r < 16, ¬ RowActive s.me o.gd r) →
    Becomes (.mmam o) s (passed (if s.me.tpAct then s.me else unstaged s.me) 8))

/-- R410, R411: tile movement. `mldt` and `mstt` move the active rows between a tile and memory, here the own scratchpad,
`mmov` one row between a tile and one vector register, or two for `.f64`. -/
def Obligations.TileMovesCarryTheirRows : Prop :=
  (∀ (o : MRowF) (s : State) (h : o.d.val < 4), s.me.tpAct = false → ShapeLegal s.me → o.ty ∈ [Ty.f32, Ty.f64] →
    let e := o.ty.width / 8
    let n := e * s.me.tshape.cols
    let addr := stridedAddress (s.x o.a) (s.x o.b)
    (∀ r < 16, RowActive s.me o.gd r → SpanOnPad s (addr r) n) →
    ∃ t : BitVec 131072,
      (∀ r < 16, ∀ j < 128,
        (RowActive s.me o.gd r ∧ j < s.me.tshape.cols → container t r j = Memory.readN s.mem (addr r + e * j) e) ∧
        (¬ (RowActive s.me o.gd r ∧ j < s.me.tshape.cols) →
          container t r j = container (s.me.t.get ⟨o.d.val, h⟩) r j)) ∧
      Becomes (.mldt o) s (passed { unstaged s.me with t := s.me.t.set o.d.val t h } 8)) ∧
  (∀ (o : MSttF) (s : State) (h : o.c.val < 4), s.me.tpAct = false → ShapeLegal s.me → o.ty ∈ [Ty.f32, Ty.f64] →
    let e := o.ty.width / 8
    let n := e * s.me.tshape.cols
    let addr := stridedAddress (s.x o.a) (s.x o.b)
    let data (r : Nat) : Nat := ((List.range s.me.tshape.cols).map
      (fun j => container (s.me.t.get ⟨o.c.val, h⟩) r j % 2 ^ (8 * e) * 2 ^ (8 * e * j))).sum
    (∀ r < 16, RowActive s.me o.gd r → SpanOnPad s (addr r) n) →
    let rows := (List.range 16).filter (fun r => r < s.me.tshape.rows && s.me.active o.gd r)
    exec (.mstt o) s = .next ((storedAll s rows n addr data).setMe (passed (unstaged s.me) 8))) ∧
  (∀ (o : MRowF) (s : State) (h : o.a.val < 4), s.active0 o.gd = true → (s.x o.b).toNat < 16 →
    let r := (s.x o.b).toNat
    let t := s.me.t.get ⟨o.a.val, h⟩
    (o.ty ≠ .f64 → ∃ v : BitVec 4096, (∀ j < 128, element v 32 j = container t r j % 2 ^ 32) ∧
      Becomes (.mmov o) s (passed { unstaged s.me with v := s.me.v.set o.d.val v o.d.isLt } 8)) ∧
    (∀ h' : o.d.val + 1 < 64, o.ty = .f64 → o.d.val % 2 = 0 → ∃ v v' : BitVec 4096,
      (∀ j < 64, element v 64 j = container t r j ∧ element v' 64 j = container t r (64 + j)) ∧
      Becomes (.mmov o) s
        (passed { unstaged s.me with v := (s.me.v.set o.d.val v o.d.isLt).set (o.d.val + 1) v' h' } 8))) ∧
  (∀ (o : MMovWrF) (s : State) (h : o.d.val < 4), s.active0 o.gd = true →
    (s.x o.b).toNat < 16 → (o.ty = .f64 → o.a.val % 2 = 0) →
    ∃ t : BitVec 131072,
      (∀ r < 16, ∀ j < 128, container t r j =
        if r = (s.x o.b).toNat then
          (if o.ty = .f64 then
            (if j < 64 then element (s.me.v.get o.a) 64 j else element (s.me.v.get (Fin.ofNat 64 (o.a.val + 1))) 64 (j - 64))
           else element (s.me.v.get o.a) 32 j)
        else container (s.me.t.get ⟨o.d.val, h⟩) r j) ∧
      Becomes (.mmovWr o) s (passed { unstaged s.me with t := s.me.t.set o.d.val t h } 8))

/-! ### Speculation and recovery -/

/-- R132 to R138, R413, R414: `fork`. Where a condition of R133 holds it pushes an unforked level, or, with no iteration,
goes past its `chk`. Otherwise its ring runs the loop forked: the executing core keeps its registers and begins chunk 0,
and the cores after it begin the next chunks with predicted registers and with vector registers that read as zero. More
than four levels take trap 0x0E, and a zero field trap 0x11.
Choices of the model it rests on are in the assumption log, entries 49, 57. -/
def Obligations.ForksStartTheirLoop : Prop :=
  ∀ (s : State) (o : ForkF),
    let f := s.me.pc
    let e := f + BitVec.ofNat 64 (4 * latchOffset o)
    let n := (s.x o.a).toNat
    let c := { s.me with strip := {}, inds := [] }
    (s.me.handler = false → s.me.levels.length < 4 → 0 < chunkSize o → 0 < latchOffset o →
      (RunsAlone s o → n = 0 → Becomes (.fork o) s { c with pc := e + 8 }) ∧
      (RunsAlone s o → n ≠ 0 →
        let l : Level := { f := f, e := e, n := n, k := chunkSize o, iter := 0, forked := false, seed := s.me.srseed }
        Becomes (.fork o) s { c with levels := l :: s.me.levels, pc := f + 12 }) ∧
      (¬ RunsAlone s o →
        let w := effectiveWidth s o
        Completes (.fork o) s (fun t =>
          (∃ g, t.myRing.forked = some g ∧ g.f = f ∧ g.e = e ∧ g.n = n ∧ g.k = chunkSize o ∧ g.w = w ∧
            g.m = chunkCount s o ∧ g.c0 = s.myRing.chunkCtr ∧ g.h.val = s.cur % 16) ∧
          t.myRing.chunks.map (fun k => (k.idx, k.num, k.slot.val)) =
            (List.range w).map (fun j => (j, s.myRing.chunkCtr + BitVec.ofNat 32 j, (s.cur + j) % 16)) ∧
          t.myRing.tflags = s.me.fflags ∧ t.me.fflags = 0 ∧ t.me.pc = f + 12 ∧ t.me.x = s.me.x ∧ t.me.v = s.me.v ∧
          t.me.p = s.me.p ∧ t.me.levels.tail = s.me.levels ∧
          (∀ j, 0 < j → j < w →
            let k := t.core (16 * (s.cur / 16) + (s.cur + j) % 16)
            k.pc = f + 12 ∧ k.fflags = 0 ∧ k.v = Vector.replicate 64 0 ∧ k.t = Vector.replicate 4 0 ∧ k.p = s.me.p ∧
              k.vl = s.me.vl ∧ k.vtype = s.me.vtype ∧ ∀ r : Reg, k.x.get r = predicted s o r j)))) ∧
    (TrapsNow s → 0 < chunkSize o → 0 < latchOffset o → 4 ≤ s.me.levels.length →
      exec (.fork o) s = .next (trapped s 0x0E f 0)) ∧
    (TrapsNow s → (chunkSize o = 0 ∨ latchOffset o = 0) → exec (.fork o) s = .next (trapped s 0x11 f 0))

/-- R133, R136, R158, R415, R416, R417, R418: `chk` goes on with the next iteration of its level or past it; in a chunk it counts the
iteration, and at the chunk's last one the chunk waits to commit and sends its live-outs. `join`, a commit point, discards
the pending declarations and `ind` makes one, `nospec` sets `specst`.ns. That a commit point ends the repairability of the oldest
chunk is read from R158 (entry 52).
Choices of the model it rests on are in the assumption log, entry 52. -/
def Obligations.LoopInstructionsKeepTheirLevels : Prop :=
  (∀ s : State, s.me.handler = false → s.me.levels = [] → Becomes .chk s (passed s.me 8)) ∧
  (∀ (s : State) (l : Level) (ls : List Level), TrapsNow s → s.me.levels = l :: ls → l.e ≠ s.me.pc →
    exec .chk s = .next (trapped s 0x11 s.me.pc 0)) ∧
  (∀ (s : State) (l : Level) (ls : List Level), s.me.handler = false → s.me.levels = l :: ls → l.e = s.me.pc →
    l.forked = false →
    (l.iter + 1 < l.n → Becomes .chk s { s.me with
      strip := {}, levels := { l with iter := l.iter + 1 } :: ls, pc := l.f + 12 }) ∧
    (l.n ≤ l.iter + 1 → Becomes .chk s { s.me with strip := {}, levels := ls, pc := l.e + 8 })) ∧
  (∀ (s : State) (l : Level) (ls : List Level) (g : Forked) (k : Chunk), s.me.handler = false →
    s.me.levels = l :: ls → l.e = s.me.pc → l.forked = true → s.myRing.forked = some g → s.myChunk = some k →
    (k.done + 1 < min g.k (g.n - k.idx * g.k) →
      exec .chk s = .next ((s.setMyRing (s.myRing.setChunk { k with done := k.done + 1 })).setMe
        { s.me with strip := {}, levels := { l with iter := l.iter + 1 } :: ls, pc := l.f + 12 })) ∧
    (min g.k (g.n - k.idx * g.k) ≤ k.done + 1 →
      Completes .chk s (fun t => t.me = { s.me with strip := {}, wait := .commit } ∧ SameMemory s t ∧
        t.myRing.chunks = (s.myRing.setChunk { k with finished := true }).chunks ∧
        t.myRing.liveOuts = s.myRing.liveOuts ++
          (if k.idx + 1 < g.m then
            [(k.idx, { x := s.me.x, p := s.me.p, vl := s.me.vl, vtype := s.me.vtype, frm := s.me.frm,
                       tshape := s.me.tshape })]
           else []) ∧
        ((s.myRing.chunks.head?.map (·.slot)) = some k.slot →
          Turn.event (.chunkCommit (Fin.ofNat 4096 s.cur)) ∈ t.turns)))) ∧
  (∀ s : State, s.me.handler = false →
    (s.myChunk = none → Becomes .join s (passed { s.me with inds := [] } 8)) ∧
    (s.speculative = false →
      exec .join s = .next (s.committing.setMe (passed { s.committing.me with inds := [] } 8))) ∧
    (∀ k, s.myChunk = some k → s.me.sbuf = [] →
      s.committing = s.setMyRing (s.myRing.setChunk { k with repairable := false })) ∧
    (s.speculative = true → Becomes .join s { s.me with wait := .commitPoint }) ∧
    (s.speculative = false →
      exec .nospec s = .next ((s.setMyRing { s.myRing with ns := true }).setMe (passed s.me 8))) ∧
    (∀ k, s.myChunk = some k → s.speculative = true → exec .nospec s = .next
      ((s.setMyRing (s.myRing.setChunk { k with ns := true })).setMe (passed s.me 8))) ∧
    (∀ o : RegImm, o.d.val ≠ 0 →
      let stride := o.imm.signExtend 64
      let old := s.me.inds
      let new := if old.any (fun d => d.1 == o.d) = true then old.map (fun d => if d.1 == o.d then (o.d, stride) else d)
        else if old.length < 8 then old ++ [(o.d, stride)] else old
      Becomes (.ind o) s (passed { s.me with inds := new } 12))) ∧
  (∀ (s : State) (o : RegImm), TrapsNow s → o.d.val = 0 → exec (.ind o) s = .next (trapped s 0x11 s.me.pc 0))

/-- R253, R255, R256, R419 to R421: `rgn.begin` opens a region, with the scalar state it starts from, and writes 0 to
x(d); `rgn.end` closes the innermost one, and the log empties with the last; `rgn.keep` appends a register snapshot to the
enabled log, and otherwise marks every open region unrecoverable. A fifth region, and an end or a snapshot outside any,
take trap 0x10.
Choices of the model it rests on are in the assumption log, entries 51, 59. -/
def Obligations.RegionsOpenKeepAndClose : Prop :=
  (∀ (s : State) (o : RegImm), s.me.handler = false → s.myChunk = none → s.me.regions.length < 4 →
    let g : Region :=
      { start := s.me.logTail, vl := s.me.vl, vtype := s.me.vtype, frm := s.me.frm, tshape := s.me.tshape
        fflags := s.me.fflags, levels := s.me.levels, strip := s.me.strip, limit := o.imm.toNat % 256, retry := 0
        unrec := false, snap := none, xd := o.d, resume := s.me.pc + 12 }
    Becomes (.rgnBegin o) s (passed (({ s.me with regions := g :: s.me.regions } : Core).setX o.d 0) 12)) ∧
  (∀ s : State, s.me.handler = false → s.me.regions ≠ [] →
    Completes .rgnEnd s (fun t =>
      t.me.regions = s.me.regions.tail ∧ t.me.pc = s.me.pc + 8 ∧ t.me.x = s.me.x ∧ t.me.v = s.me.v ∧
      t.me.fflags = s.me.fflags ∧ (∀ e ∈ t.me.l1, e.2.st ≠ .g s.me.regions.length) ∧
      (s.me.regions.length = 1 → t.me.logTail = 0 ∧ t.me.logOvf = false) ∧
      (1 < s.me.regions.length → t.me.logTail = s.me.logTail ∧ SameMemory s t) ∧
      ((∀ e ∈ s.me.l1, ∀ d, e.2.st ≠ .g d) → SameMemory s t))) ∧
  (∀ (s : State) (o : KeepF) (g : Region) (gs : List Region), s.me.handler = false → s.me.regions = g :: gs →
    let sm := s.x o.a &&& 0xFFFFFFFFFFFFFFFE
    let vm := s.x o.b
    let kept := (List.range 64).filter (fun i => sm.getLsbD i)
    let n := 2 + (kept.length + 64 * onesIn 64 vm) / 2
    let marked (r : Region) : Region := { r with unrec := true }
    let base := 0xFE * 2 ^ 56 + s.cur % 4096 * 2 ^ 32 + s.me.logBase * 0x10000 + 16 * s.me.logTail
    (sm = 0 → vm = 0 → Becomes (.rgnKeep o) s (passed s.me 8)) ∧
    (¬ (sm = 0 ∧ vm = 0) → (s.me.logEn = false ∨ s.me.logOvf = true) →
      Becomes (.rgnKeep o) s (passed { s.me with regions := s.me.regions.map marked } 8)) ∧
    (¬ (sm = 0 ∧ vm = 0) → s.me.logEn = true → s.me.logOvf = false → 4096 < s.me.logTail + n →
      Becomes (.rgnKeep o) s (passed { s.me with regions := s.me.regions.map marked, logOvf := true } 8)) ∧
    (¬ (sm = 0 ∧ vm = 0) → s.me.logEn = true → s.me.logOvf = false → s.me.logTail + n ≤ 4096 →
      Memory.wf s.mem = true →
      Completes (.rgnKeep o) s (fun t =>
        t.me = passed { s.me with
          logTail := s.me.logTail + n, regions := { g with snap := some s.me.logTail } :: gs } 8 ∧
        SameMemoryOutside s t base (16 * n) ∧
        Memory.readN t.mem base 8 = 2 ^ 63 ∧ Memory.readN t.mem (base + 8) 8 = sm.toNat ∧
        Memory.readN t.mem (base + 16) 8 = vm.toNat ∧
        ∀ i (h : i < kept.length), Memory.readN t.mem (base + 24 + 8 * i) 8 = (s.x (Fin.ofNat 64 kept[i])).toNat))) ∧
  (∀ (s : State) (o : RegImm), TrapsNow s → 4 ≤ s.me.regions.length →
    exec (.rgnBegin o) s = .next (trapped s 0x10 s.me.pc 0)) ∧
  (∀ (s : State) (o : KeepF), TrapsNow s → s.me.regions = [] →
    exec .rgnEnd s = .next (trapped s 0x10 s.me.pc 0) ∧ exec (.rgnKeep o) s = .next (trapped s 0x10 s.me.pc 0))

/-! ### Messages and copies -/

/-- R422 to R424, R198: `send` and `sends` put a message into the torus: its target, its tag x(d), the next sequence value
of its stream, and as payload bytes of the core's scratchpad or of a register pair; one for another device goes to the node
of a UALink port. Malformed words and a scope, which they must not name, take trap 0x11 (R302), an open
region trap 0x0F. A device that no route leads to takes trap 0x0A.
Choices of the model it rests on are in the assumption log, entry 61. -/
def Obligations.MessagesAreSent : Prop :=
  (∀ (s : State) (o : SendF), Plain s → s.active0 o.gd = true → o.sc = 0 → MessageWords s o 4096 → MaySend s →
    let len := (s.x o.c).toNat % 2 ^ 13
    SpanOnPad s (s.x o.b).toNat len →
    SendsPacket (.send o) s (IsMessage s o (bytesOf len (Memory.readN s.mem (s.x o.b).toNat len)))) ∧
  (∀ (s : State) (o : SendF) (h : o.b.val + 1 < 64), Plain s → s.active0 o.gd = true → o.sc = 0 → MessageWords s o 16 →
    MaySend s → o.b.val % 2 = 0 →
    SendsPacket (.sends o) s (IsMessage s o (bytesOf ((s.x o.c).toNat % 2 ^ 13)
      ((s.x ⟨o.b.val + 1, h⟩).toNat * 2 ^ 64 + (s.x o.b).toNat)))) ∧
  (∀ (s : State) (o : SendF) (u : Nat), Plain s → s.active0 o.gd = true → o.sc = 0 →
    let a := (s.x o.a).toNat
    let l := (s.x o.c).toNat
    let dev := a / 2 ^ 44 % 4096
    a / 2 ^ 56 = 0xFE → a / 4 % 2 ^ 30 = 0 → l / 2 ^ 32 = 0 → l / 2 ^ 13 % 8 = 0 → l % 2 ^ 13 ≤ 16 → o.b.val % 2 = 0 →
    dev ≠ 0 → dev ≠ s.fab.devidAct → s.portFor s.cur dev a = some u → MaySend s → s.backs = [] →
    Completes (.sends o) s (fun t => SameMemory s t ∧ ∃ p, t.fab.pkts = s.fab.pkts ++ [p] ∧ p.away = some (dev, u) ∧
      p.kind = 7 ∧ p.key = s.key ∧ p.dst = ualNode u ∧ p.dcore = a / 2 ^ 32 % 4096 ∧ p.buf.val = a % 4 ∧
      p.payload.length = l % 2 ^ 13)) ∧
  (∀ (s : State) (o : SendF), TrapsNow s → (s.x o.a).toNat / 2 ^ 56 ≠ 0xFE ∨ o.sc ≠ 0 →
    exec (.send o) s = .next (trapped s 0x11 s.me.pc 0) ∧ exec (.sends o) s = .next (trapped s 0x11 s.me.pc 0)) ∧
  (∀ (s : State) (o : SendF), TrapsNow s → o.sc = 0 → MessageWords s o 16 → o.b.val % 2 = 0 → s.me.regions ≠ [] →
    exec (.send o) s = .next (trapped s 0x0F s.me.pc 0) ∧ exec (.sends o) s = .next (trapped s 0x0F s.me.pc 0)) ∧
  (∀ (s : State) (o : SendF), Plain s → s.active0 o.gd = true → o.sc = 0 →
    let a := (s.x o.a).toNat
    let l := (s.x o.c).toNat
    a / 2 ^ 56 = 0xFE → a / 4 % 2 ^ 30 = 0 → l / 2 ^ 13 = 0 → l % 2 ^ 13 ≤ 16 → o.b.val % 2 = 0 →
    a / 2 ^ 44 % 4096 ≠ 0 → a / 2 ^ 44 % 4096 ≠ s.fab.devidAct →
    (Table.get s.fab.drt (a / 2 ^ 44 % 4096) 0).getLsbD 63 = false →
    let t := trapped (s.recordMe { cause := 10, acc := 7, va := a, elem := 0xFFFF }) (0x0A + 65536 * 10) s.me.pc (s.x o.a)
    exec (.send o) s = .next t ∧ exec (.sends o) s = .next t)

/-- R425, R215, R197: `mpoll` returns the tail of its buffer and is an acquire; `mwait` does the same once the tail differs
from the head, and waits until then; `mpop` moves the head past one entry and returns it, or returns it as it is when the
buffer is empty. A buffer number above 3, a scope, which they must not name (R302), and an `mwait` on a buffer that is not enabled
take trap 0x11.
Choices of the model it rests on are in the assumption log, entries 62, 122. -/
def Obligations.MessagesAreReceived : Prop :=
  (∀ (s : State) (o : MBufF) (h : o.a.val < 4), Plain s → s.active0 o.gd = true → o.sc = 0 →
    let b := s.me.rb.get ⟨o.a.val, h⟩
    let polled := scalarDone (refreshed s.me) o.d (BitVec.ofNat 64 b.tail) 0 8
    (Uncaptured s → Becomes (.mpoll o) s polled) ∧
    (Uncaptured s → b.en = true → b.tail ≠ b.head → Becomes (.mwait o) s polled) ∧
    (b.en = true → b.tail = b.head → Becomes (.mwait o) s { s.me with wait := .mwait o }) ∧
    (s.me.sbuf = [] → occupied b = 0 → Becomes (.mpop o) s (scalarDone s.me o.d (BitVec.ofNat 64 b.head) 0 8)) ∧
    (s.me.sbuf = [] → occupied b ≠ 0 →
      let at_ := 0xFE * 2 ^ 56 + s.cur % 4096 * 2 ^ 32 + b.base * 4096 + b.head % (4096 * 2 ^ b.lsz)
      let len := Memory.readN s.mem at_ 8 % 8192
      let head := (b.head + min (entrySize len) (occupied b)) % 2 ^ 19
      Completes (.mpop o) s (fun t => SameMemory s t ∧
        t.me = scalarDone { s.me with rb := s.me.rb.set o.a.val { b with head := head } h } o.d (BitVec.ofNat 64 head) 0 8 ∧
        ∀ p ∈ s.fab.pkts, p.dcore = s.cur → p.phase = .held → Turn.event (.messageResend p.pid) ∈ t.turns))) ∧
  (∀ (s : State) (o : MBufF) (h : o.a.val < 4) (th : Thread), Plain s → s.active0 o.gd = true → o.sc = 0 →
    s.myRing.thread = some th →
    let k := (s.recd th.job th.record).cap
    let b := s.me.rb.get ⟨o.a.val, h⟩
    k.mode = 1 → k.stopped = false → k.used + 32 ≤ k.size → Memory.wf s.mem = true →
    Completes (.mpoll o) s (fun t =>
      t.me = scalarDone (refreshed s.me) o.d (BitVec.ofNat 64 b.tail) 0 8 ∧
      SameMemoryOutside s t (k.base + k.used) 32 ∧
      Memory.readN t.mem (k.base + k.used) 8 = 2 * 2 ^ 56 + s.cur % 4096 * 2 ^ 44 + 16 ∧
      Memory.readN t.mem (k.base + k.used + 8) 8 = th.pos % 2 ^ 64 ∧
      Memory.readN t.mem (k.base + k.used + 16) 8 = b.tail % 2 ^ 64 ∧
      Memory.readN t.mem (k.base + k.used + 24) 8 = o.a.val)) ∧
  (∀ (s : State) (o : MBufF), TrapsNow s → 4 ≤ o.a.val ∨ o.sc ≠ 0 →
    exec (.mpoll o) s = .next (trapped s 0x11 s.me.pc 0) ∧ exec (.mwait o) s = .next (trapped s 0x11 s.me.pc 0) ∧
    exec (.mpop o) s = .next (trapped s 0x11 s.me.pc 0)) ∧
  (∀ (s : State) (o : MBufF) (h : o.a.val < 4), TrapsNow s → (s.me.rb.get ⟨o.a.val, h⟩).en = false →
    exec (.mwait o) s = .next (trapped s 0x11 s.me.pc 0))

/-- R426, R427, R73: `ratom` on the scratchpad of a core of this package, which is here that of the executing core or one that its
key reaches, returns the old value and writes the new one of its operation code; code 5 compares with x(b) and writes x(b + 1). One on
another device sends its operation through the node of a UALink port and waits; the answer ends it with the old value. A device that no
route leads to takes trap 0x0A.
Choices of the model it rests on are in the assumption log, entries 19, 26, 58. -/
def Obligations.RemoteAtomicsActOnce : Prop :=
  (∀ e ∈ remoteRows, ∀ (s : State) (o : RatomF), Plain s → s.active0 o.gd = true → o.c.val = e.1 →
    o.ty.isInt = true → 8 ≤ o.ty.width → ((o.acq = false ∧ o.rel = false) ∨ o.sc.val = 0) →
    let va := (s.x o.a).toNat
    let n := o.ty.width / 8
    let old := Memory.readN s.mem va n
    OnOwnPad s va n →
    exec (.ratom o) s = .next ((stored s va n (e.2 o.ty old (low s o.b o.ty.width) % 2 ^ o.ty.width)).setMe
      (scalarDone s.me o.d (widened o.ty (BitVec.ofNat o.ty.width old)) 0 8))) ∧
  (∀ (s : State) (o : RatomF) (h : o.b.val + 1 < 64), Plain s → s.active0 o.gd = true → o.c.val = 5 →
    o.b.val % 2 = 0 → 8 ≤ o.ty.width → ((o.acq = false ∧ o.rel = false) ∨ o.sc.val = 0) →
    let va := (s.x o.a).toNat
    let n := o.ty.width / 8
    let old := Memory.readN s.mem va n
    OnOwnPad s va n →
    exec (.ratom o) s = .next
      ((if old = low s o.b o.ty.width then stored s va n (low s ⟨o.b.val + 1, h⟩ o.ty.width) else s).setMe
        (scalarDone s.me o.d (widened o.ty (BitVec.ofNat o.ty.width old)) 0 8))) ∧
  (∀ e ∈ remoteRows, ∀ (s : State) (o : RatomF) (d : Fin 4096), Plain s → s.active0 o.gd = true → o.c.val = e.1 →
    o.ty.isInt = true → 8 ≤ o.ty.width → ((o.acq = false ∧ o.rel = false) ∨ o.sc.val = 0) → s.cur < 4096 → d.val ≠ s.cur →
    let va := (s.x o.a).toNat
    let n := o.ty.width / 8
    let old := Memory.readN s.mem va n
    OnPadOf d va n → Reaches s d → (s.ring (d.val / 16)).chunks = [] →
    Completes (.ratom o) s (fun t =>
      t.mem = Memory.writeN s.mem va n (e.2 o.ty old (low s o.b o.ty.width) % 2 ^ o.ty.width) ∧
      t.me = { scalarDone s.me o.d (widened o.ty (BitVec.ofNat o.ty.width old)) 0 8 with oreqs := t.me.oreqs })) ∧
  (∀ (s : State) (o : RatomF), Plain s → s.active0 o.gd = true → (o.c.val = 5 → o.b.val % 2 = 0) → 8 ≤ o.ty.width →
    (o.rel = false ∨ o.sc.val = 0) →
    let a := (s.x o.a).toNat
    let n := o.ty.width / 8
    let dev := a / 2 ^ 44 % 4096
    a / 2 ^ 56 = 0xFE → a % n = 0 → a % 2 ^ 32 + n ≤ 0x40000 → dev ≠ 0 → dev ≠ s.fab.devidAct →
    (∀ u, s.portFor s.cur dev a = some u → s.memberN (nodeOf s.cur) s.key = true → s.me.oreqs.length < 64 →
      Completes (.ratom o) s (fun t => SameMemory s t ∧ (∃ i < 64,
        t.me = { s.me with oreqs := s.me.oreqs ++ [(i, false)], wait := .remote s.fab.nextPid o a }) ∧
        ∃ p, t.fab.pkts = s.fab.pkts ++ [p] ∧ p.pid = s.fab.nextPid ∧ p.kind = 3 ∧ p.away = some (dev, u) ∧
          p.dst = ualNode u ∧ p.key = s.key ∧ p.addr = a ∧ p.dcore = a / 2 ^ 32 % 4096 ∧ p.size = n ∧
          p.atom = some { ty := o.ty, op := o.c.val, b := (s.x o.b).toNat, b2 := (s.x (Fin.ofNat 64 (o.b.val + 1))).toNat })) ∧
    ((Table.get s.fab.drt dev 0).getLsbD 63 = false →
      exec (.ratom o) s = .next
        (trapped (s.recordMe { cause := 10, acc := 2, va := a }) (0x0A + 65536 * 10) s.me.pc (s.x o.a)))) ∧
  (∀ (s : State) (c : Fin 4096) (p : Pkt) (o : RatomF) (a : Nat) (r : Reply), s.pkt p.pid = some p → p.phase = .acked →
    s.answering p.pid = false → p.reply = some r → r.kind = 4 → p.kind = 3 → p.origin = none → p.hart = none →
    p.leg = false → p.away.isSome = true → p.score = c.val → (s.core c.val).wait = .remote p.pid o a →
    (o.acq = false ∨ o.sc.val = 0) →
    (∀ th, (s.ring (c.val / 16)).thread = some th → (s.recd th.job th.record).cap.mode = 0) →
    let k := scalarDone (s.core c.val) o.d (widened o.ty (BitVec.ofNat o.ty.width (ofBytes r.data))) 0 8
    Completes (.acknowledgeReceipt p.pid) s (fun t => SameMemory s t ∧ (t.core c.val).x = k.x ∧
      (t.core c.val).pc = k.pc ∧ (t.core c.val).wait = .none)) ∧
  (∀ (s : State) (o : RatomF), TrapsNow s → o.c.val = 5 → o.b.val % 2 = 1 →
    exec (.ratom o) s = .next (trapped s 0x11 s.me.pc 0)) ∧
  (∀ (s : State) (o : RatomF), Plain s → TrapsNow s → s.active0 o.gd = true → o.c.val ≠ 5 →
    (s.x o.a).toNat % (o.ty.width / 8) ≠ 0 → exec (.ratom o) s = .next (trapped s 0x08 s.me.pc (s.x o.a)))

/-- R194, R196, R214, R428 to R433: `cpy` and `cpyv` hand their operands to the hart of their channel, whose kick follows,
and go on; `drain` waits until every copy of its channel has completed and is then an acquire. `pref` marks its token pending unless
there is nothing to fetch, `qwait` returns a token, and each waits for a token that is pending. Their release at scope 9 waits
for no report of a Type 3 device, and what waits for the host at scope 6 and above is what the model holds back: both are the model's
choices (entries 120 and 57).
Choices of the model it rests on are in the assumption log, entries 53, 57, 64, 65, 69, 120. -/
def Obligations.CopiesAndPrefetchesAreHandedOver : Prop :=
  (∀ (s : State) (o : CpyF) (hd : o.d.val < 4) (hc : o.c.val + 1 < 64), Plain s → s.active0 o.gd = true →
    o.c.val % 2 = 0 →
    let l := (s.x o.c).toNat
    let cnt := s.x ⟨o.c.val + 1, hc⟩
    let fold := l / 2 ^ 37 % 8
    let op := l / 2 ^ 40 % 8
    let sz := cfmtBytes op
    fold < 5 → l / 2 ^ 43 % 32 = 0 → l / 2 ^ 32 % 32 = 0 → cnt.toNat % 8 = 0 → (fold = 0 → op = 0) →
    (fold ≠ 0 → l % 2 ^ 32 % sz = 0 ∧ (s.x o.a).toNat % sz = 0 ∧ (s.x o.b).toNat % sz = 0 ∧
      s.away (s.x o.a).toNat = false) →
    (s.away (s.x o.a).toNat = false ∨ s.away (s.x o.b).toNat = false) → s.unacked s.cur o.sc.val = false →
    (o.sc.val < 6 ∨ s.backs = []) →
    let c : Copy :=
      { core := s.cur, ch := o.d.val, dst := s.x o.a, src := s.x o.b, len := l % 2 ^ 32, fold := fold, op := op, cnt := cnt
        sand := o.sand, sdl := max 1 (l / 2 ^ 48 % 65536), key := s.key, pc := s.me.pc, launch := s.myLaunch }
    exec (.cpy o) s = .next ({ s with
      copies := s.copies ++ [c]
      turns := s.turns ++ [Turn.event (.copyKick (Fin.ofNat 4096 s.cur) ⟨o.d.val, hd⟩ false)] }.setMe
        (passed { s.me with issued := s.me.issued.set o.d.val (s.me.issued.get ⟨o.d.val, hd⟩ + 1) hd } 8))) ∧
  (∀ (s : State) (o : CpyvF) (hd : o.d.val < 4), Plain s → s.active0 o.gd = true →
    let w := (s.x o.c).toNat
    let nr := w % 16
    let out := decide (w / 256 % 2 = 1)
    let c : Copy :=
      { core := s.cur, ch := o.d.val, dst := if out then s.x o.a else 0, src := if out then 0 else s.x o.a
        len := 512 * nr, sand := o.sand, regs := some (o.b.val, nr, out)
        vals := if out then (List.range nr).map (fun i => s.me.v.get (Fin.ofNat 64 (o.b.val + i))) else []
        key := s.key, pc := s.me.pc, launch := s.myLaunch }
    1 ≤ nr → nr ≤ 8 → o.b.val + nr ≤ 64 → w / 16 % 16 = 0 → w / 512 = 0 →
    (o.cb = true → out = true ∧ o.ty.val = 0 ∧ badScope o.sc = false) →
    s.unacked s.cur o.sc.val = false → (o.sc.val < 6 ∨ s.backs = []) →
    Completes (.cpyv o) s (fun t => SameMemory s t ∧ t.copies = s.copies ++ [c] ∧
      t.turns = s.turns ++ [Turn.event (.copyKick (Fin.ofNat 4096 s.cur) ⟨o.d.val, hd⟩ false)] ∧
      t.me = passed { s.me with issued := s.me.issued.set o.d.val (s.me.issued.get ⟨o.d.val, hd⟩ + 1) hd } 8)) ∧
  (∀ (s : State) (o : CpyvF), TrapsNow s → o.cb = true → (s.x o.c).toNat / 256 % 2 = 0 →
    exec (.cpyv o) s = .next (trapped s (0x01 + 256 * 2) s.me.pc 0)) ∧
  (∀ (s : State) (o : DrainF) (h : o.a.val < 4), Plain s → s.active0 o.gd = true →
    (s.me.issued.get ⟨o.a.val, h⟩ = s.me.completed.get ⟨o.a.val, h⟩ → Becomes (.drain o) s (passed (refreshed s.me) 8)) ∧
    (s.me.issued.get ⟨o.a.val, h⟩ ≠ s.me.completed.get ⟨o.a.val, h⟩ →
      Becomes (.drain o) s { s.me with wait := .drain o })) ∧
  (∀ (s : State) (o : TriF) (h : o.d.val < 8), s.myChunk = none → s.active0 o.gd = true →
    let q : Fin 8 := ⟨o.d.val, h⟩
    ((s.me.q.get q).getLsbD 63 = true → Becomes (.pref o) s { s.me with wait := .token q }) ∧
    ((s.me.q.get q).getLsbD 63 = false → s.x o.b = 0 →
      Becomes (.pref o) s (passed { s.me with q := s.me.q.set o.d.val 0 h } 8)) ∧
    ((s.me.q.get q).getLsbD 63 = false → s.x o.b ≠ 0 →
      exec (.pref o) s = .next ({ s with
        prefs := s.prefs ++ [({ core := s.cur, q := q, start := s.x o.a, len := s.x o.b, key := s.key } : Pref)]
        turns := s.turns ++ [Turn.event (.prefComplete (Fin.ofNat 4096 s.cur) q)] }.setMe
          (passed { s.me with q := s.me.q.set o.d.val 0x8000000000000000 h } 8)))) ∧
  (∀ (s : State) (o : DuoF) (h : o.a.val < 8), s.myChunk = none → s.active0 o.gd = true →
    let w := s.me.q.get ⟨o.a.val, h⟩
    (w.getLsbD 63 = true → Becomes (.qwait o) s { s.me with wait := .token ⟨o.a.val, h⟩ }) ∧
    (w.getLsbD 63 = false → Becomes (.qwait o) s (scalarDone s.me o.d w 0 8))) ∧
  (∀ (s : State), TrapsNow s →
    (∀ o : CpyF, 4 ≤ o.d.val → exec (.cpy o) s = .next (trapped s 0x11 s.me.pc 0)) ∧
    (∀ o : DrainF, 4 ≤ o.a.val → exec (.drain o) s = .next (trapped s 0x11 s.me.pc 0)) ∧
    (∀ o : TriF, 8 ≤ o.d.val → exec (.pref o) s = .next (trapped s 0x11 s.me.pc 0)) ∧
    (∀ o : DuoF, 8 ≤ o.a.val → exec (.qwait o) s = .next (trapped s 0x11 s.me.pc 0)))

/-- R435 to R437, R113, R116: `arm` returns 1 outside the pool, 2 for a record that is not idle, and 0 where it starts a
launch; `qpush` stores its element and counts it, and waits while the queue is full; `qpop` waits while the queue is empty
and open, returns 1 when it is closed, and else delivers an element and returns 0; `exit` ends the thread, and waits while
its copies are incomplete. The accesses of the queues are the model's shared operations.
Choices of the model it rests on are in the assumption log, entries 41, 66, 91, 122. -/
def Obligations.LaunchesQueuesAndExit : Prop :=
  (∀ (s : State) (o : DuoF) (t : Thread), Plain s → s.active0 o.gd = true → s.unacked s.cur 5 = false →
    s.myRing.thread = some t →
    let i := (s.x o.a).toNat
    s.tied t.job i = false →
    ((s.job t.job).poolCount ≤ i → Becomes (.arm o) s (scalarDone s.me o.d 1 0 8)) ∧
    (i < (s.job t.job).poolCount → (s.recd t.job i).st ≠ .idle → Becomes (.arm o) s (scalarDone s.me o.d 2 0 8)) ∧
    (i < (s.job t.job).poolCount → (s.recd t.job i).st = .idle → ∀ s',
      (s.accept t.job i false = .done s' ∨ s.accept t.job i false = .lost s') →
      exec (.arm o) s = .next (s'.setMe (scalarDone s'.me o.d 0 0 8)))) ∧
  (∀ (s s₁ s₂ : State) (o : QPushF) (q : QDesc), Plain s → s.active0 o.gd = true →
    let d := (s.x o.a).toNat
    let b := (s₁.x o.b).toNat
    let slot := q.slot q.pushed
    d % 128 = 0 → FindsQueue s d q s₁ → NoIo s₁ s₁.who b q.sz → s₁.me.oreqs.length < 64 →
    s₁.readyTo s₁.who 0 b q.sz = .ok 0 s₂ → s₂.unacked s₂.cur 5 = false → s₂.me.softDirty = false →
    (q.occ = q.cap → exec (.qpush o) s = .next (s₂.setMe { s₂.me with wait := .qpush o })) ∧
    (q.occ ≠ q.cap → NoIo s₂ (schedWho s₂.key) slot q.sz → ∀ s₃ s₄ s₅ data v,
      s₂.readyTo (schedWho s₂.key) 1 slot q.sz = .ok 0 s₃ → s₃.loadAt s₃.who b q.sz false = .ok data s₄ →
      s₄.storeAt (schedWho s₂.key) slot q.sz data = .ok v s₅ →
      let t := ((s₅.putWord s₅.key (d + 0x10) (q.pushed + 1)).clearSched).wakePops s₅.key
      exec (.qpush o) s = .next (t.setMe (passed t.me 8)))) ∧
  (∀ (s s₁ s₂ : State) (o : TriF) (q : QDesc), Plain s → s.active0 o.gd = true →
    let d := (s.x o.a).toNat
    let b := (s₁.x o.b).toNat
    let slot := q.slot q.popped
    d % 128 = 0 → FindsQueue s d q s₁ → NoIo s₁ s₁.who b q.sz → s₁.me.oreqs.length < 64 →
    s₁.readyTo s₁.who 1 b q.sz = .ok 0 s₂ →
    (q.occ = 0 → q.closed = true →
      let u := s₂.softAcquire s₂.cur
      exec (.qpop o) s = .next (u.setMe (scalarDone u.me o.d 1 0 8))) ∧
    (q.occ = 0 → q.closed = false →
      exec (.qpop o) s = .next (s₂.setMe { s₂.me with wait := .qpop o 0 (s₂.yieldPoint d) })) ∧
    (q.occ ≠ 0 → NoIo s₂ (schedWho s₂.key) slot q.sz → ∀ s₃ s₄ data v,
      s₂.loadAt (schedWho s₂.key) slot q.sz true = .ok data s₃ → s₃.storeAt s₃.who b q.sz data = .ok v s₄ →
      let t := ((s₄.putWord s₄.key (d + 0x18) (q.popped + 1)).clearSched).wakePushes s₄.key
      let u := t.softAcquire t.cur
      exec (.qpop o) s = .next (u.setMe (scalarDone u.me o.d 0 0 8)))) ∧
  (∀ (s : State) (o : ExitF), Plain s → s.active0 o.gd = true →
    (s.copiesOf s.cur = true → Becomes (.exit o) s { s.me with wait := .exit o }) ∧
    (s.copiesOf s.cur = false →
      let t := s.endRing (s.cur / 16)
      exec (.exit o) s = .next (t.endStages.syncNote s.key) ∧ t.myRing.thread = none ∧ SameMemory s t ∧
        ∀ c k, Table.get? s.cores c = some k → c / 16 = s.cur / 16 →
          (t.core c).wait = .ended ∧ (t.core c).mslabs = 0 ∧ (t.core c).regions = []))

/-! ### The module and the fabric -/

/-- R22, R25, R27, R28, R31, R32, R161: what resets leave, how the governor, the power controller and the tamper alarm
move, and retention sleep. A cold reset clears the module's memory, jobs and keys and boots afresh, a warm reset boots from step 2 and
keeps memory, keys and retired lanes (write-backs that wait for the host reach memory first), power-off loses all but the
halt of an alarm; memory outside the module, the host's and a Type 3 device's, keeps its bytes through both.
Choices of the model it rests on are in the assumption log, entries 1, 3, 6, 88, 99, 106, 107, 108, 120, 126. -/
def Obligations.ResetsPowerAndAlarmsKeepTheirState : Prop :=
  (∀ (s : State) (b : BootReport),
    (s.dev.halted = true ∧ s.dev.powered = true → Stutters (.coldReset b) s) ∧
    (¬ (s.dev.halted = true ∧ s.dev.powered = true) →
      Completes (.coldReset b) s (fun t => t.mem = s.mem.filter (fun c => Beyond c.1) ∧ t.jobs = [] ∧ t.copies = [] ∧
        t.poison = s.poison.filter (fun e => Beyond (128 * e.1)) ∧
        t.dev.clocksOn = true ∧ t.dev.powered = true ∧ t.dev.halted = false ∧ t.dev.attReq = s.dev.halted ∧
        t.dev.bstep = bootedTo 1 b ∧ t.dev.bootFail = bootFailure 1 b ∧ t.dev.bifur = s.dev.bifurNext ∧
        (∀ step cause, bootFailure 1 b = some (step, cause) → Output.bootStopped step cause ∈ t.outs) ∧
        t.dev.trip = (s.dev.trip && decide (bootedTo 1 b < 2)) ∧
        (1 ≤ bootedTo 1 b → ∃ m, t.dev.keys = [(0, m)]) ∧ (bootedTo 1 b = 0 → t.dev.keys = []))) ∧
    (s.dev.clocksOn = false → Stutters (.moduleWarmReset b) s) ∧
    (s.dev.clocksOn = true →
      Completes (.moduleWarmReset b) s (fun t => t.jobs = [] ∧ t.cycle = s.cycle ∧ t.dev.keys = s.dev.keys ∧
        t.dev.bstep = bootedTo 2 b ∧ t.dev.bootFail = bootFailure 2 b ∧ t.dev.almLock = s.dev.almLock ∧
        (∀ p < 24, (t.dev.port p).tx = (s.dev.port p).tx ∧ (t.dev.port p).rx = (s.dev.port p).rx ∧
          (t.dev.port p).txctr = (s.dev.port p).txctr ∧ (t.dev.port p).rxlast = (s.dev.port p).rxlast ∧
          (t.dev.port p).queue = []) ∧
        (s.dev.almLock = true → t.dev.almEn = s.dev.almEn ∧ t.dev.almPol = s.dev.almPol) ∧
        (s.dev.almLock = false → t.dev.almEn = 0x1F ∧ t.dev.almPol = 0) ∧
        (Memory.wf s.mem = true → s.backs = [] → ∀ a < 2 ^ 52, Memory.read t.mem a = Memory.read s.mem a) ∧
        (Memory.wf s.mem = true → ∀ a, 2 ^ 52 ≤ a → Memory.read t.mem a = 0) ∧
        ∀ c, (t.core c).lret = (s.core c).lret ∧ (t.core c).x = Vector.replicate 64 0 ∧ (t.core c).pc = 0))) ∧
  (∀ s : State, Completes .powerOff s (fun t => t.mem = s.mem.filter (fun c => Beyond c.1) ∧ t.jobs = [] ∧ t.cores = [] ∧ t.dev.powered = false ∧
    t.dev.clocksOn = false ∧ t.dev.halted = s.dev.halted ∧ t.dev.keys = [] ∧ t.dev.trip = false)) ∧
  (∀ (s : State) (n : Fin 32) (depth : BitVec 8),
    let m := s.dev.domain n.val
    let g := governed m s.dev.power.cap depth.toNat
    (m.target.isSome = true ∨ s.dev.bstep < 2 → Stutters (.governorSample n depth) s) ∧
    (m.target = none → 2 ≤ s.dev.bstep → DevBecomes (.governorSample n depth) s
      (s.dev.setDomain n.val { m with quiet := g.2, target := if g.1 = m.cur then none else some g.1 })) ∧
    (m.target = none → Stutters (.governorMoveDone n) s) ∧
    (∀ p, m.target = some p → DevBecomes (.governorMoveDone n) s
      (s.dev.setDomain n.val { m with cur := p, target := none, moves := (m.moves + 1) % 2 ^ 32 }))) ∧
  (∀ (s : State) (m : PowerSample), (s.dev.bstep < 2 → Stutters (.powerMeasurement m) s) ∧
    (2 ≤ s.dev.bstep →
      let q := throttled s.dev.power m
      let p : Power :=
        { thr := q.1, quiet := q.2, cap := if 8 ≤ q.1 then 5 else 7, modW := m.modW.toNat, pkgW := m.pkgW.toNat
          hot := decide (105 ≤ m.temp), modLim := decide (4800 < m.modW.toNat), pkgLim := decide (4600 < m.pkgW.toNat)
          temp := m.temp }
      (m.temp < 115 → DevBecomes (.powerMeasurement m) s { s.dev with power := p }) ∧
      (115 ≤ m.temp → exec (.powerMeasurement m) s =
        .next { s with dev := { s.dev with power := p }, turns := s.turns ++ [Turn.event .thermalTrip] }))) ∧
  (∀ s : State, DevBecomes .thermalTrip s { s.dev with clocksOn := false, alert := true, trip := true }) ∧
  (∀ (s : State) (w : BitVec 64),
    let pol := w.toNat % 4
    DevBecomes (.almCfgWrite w) s { s.dev with
      almPol := if pol = 3 then s.dev.almPol else if s.dev.almLock then max s.dev.almPol pol else pol
      almEn := if s.dev.almLock then s.dev.almEn ||| w.extractLsb' 3 5 else w.extractLsb' 3 5
      almLock := s.dev.almLock || w.getLsbD 8 }) ∧
  (∀ (s : State) (k : Fin 5),
    (s.dev.almEn.getLsbD k.val = false ∨ s.dev.powered = false → Stutters (.tamperAlarm k) s) ∧
    (s.dev.almEn.getLsbD k.val = true → s.dev.powered = true →
      Completes (.tamperAlarm k) s (fun t => t.dev.alert = true ∧ t.dev.almSeen.getLsbD k.val = true ∧
        t.dev.almCount = min (s.dev.almCount + 1) 4294967295 ∧
        (s.dev.almPol = 0 → t.dev.keys = s.dev.keys ∧ t.mem = s.mem ∧ t.jobs = s.jobs ∧ t.dev.clocksOn = s.dev.clocksOn) ∧
        (s.dev.almPol = 1 → (∃ m, t.dev.keys = [(0, m)]) ∧ NoJobOpen t ∧
          ∀ p < 24, (t.dev.port p).tx = none ∧ (t.dev.port p).rx = none) ∧
        (s.dev.almPol = 2 → t.dev.keys = [] ∧ t.dev.clocksOn = false ∧ t.dev.halted = true)))) ∧
  (∀ (s : State) (c : Fin 4096),
    let k := s.core c.val
    let g := s.ring (c.val / 16)
    (g.chunkAt (slotOf c.val) = none → (g.thread = none ∨ g.head ≠ slotOf c.val) → (∀ e ∈ k.l1, e.2.st = .n) →
      exec (.coreRetentionSleep c) s = .next (s.setCore c.val { k with asleep := true })) ∧
    ((g.chunkAt (slotOf c.val)).isSome = true → Stutters (.coreRetentionSleep c) s))

/-- R11, R18, R29, R38 to R40, R57, R75, R76, R84, R90, R96, R176, R179: link training and loss, the test access port,
debug (which closes the jobs, and takes effect once none is left), management, IDE, doorbells (whose launch is rejected on
a link without CXL.cache and CXL.mem), and writes to registers: the host interface opens when the boot has ended, a field
that software may not write keeps its value, an offset that names no register changes nothing in io space and is an
Unsupported Request at BAR0, read or written, as is an access of another size or alignment.
Choices of the model it rests on are in the assumption log, entries 16, 80, 87, 99, 128. -/
def Obligations.LinksDebugAndRegistersFollowTheirWrites : Prop :=
  (∀ (s : State) (l : Fin 8) (k : TrainKind),
    let there := l.val % 2 = 0 ∨ s.dev.bifur.getLsbD (l.val / 2) = true
    (¬ there ∨ s.dev.bstep ≠ 5 → Stutters (.cxlLinkTrain l k) s) ∧
    (there → s.dev.bstep = 5 → k ≠ .plainPcie →
      DevBecomes (.cxlLinkTrain l k) s { s.dev with links := s.dev.links.set l.val (some k) l.isLt }) ∧
    (there → s.dev.bstep = 5 → k = .plainPcie → Completes (.cxlLinkTrain l k) s (fun t =>
      t.dev.links = s.dev.links.set l.val (some .plainPcie) l.isLt ∧ t.mem = s.mem ∧ t.cores = s.cores ∧
      ((s.dev.elogTail + 1) % 1024 ≠ s.dev.elogHead →
        ∃ e, t.dev.elog = Table.put s.dev.elog s.dev.elogTail e ∧ e.code = 0x10 ∧ e.time = s.cycle))) ∧
    DevBecomes (.cxlLinkLoss l) s { s.dev with
      links := s.dev.links.set l.val none l.isLt, spdm := s.dev.spdm.set l.val {} l.isLt
      ide := s.dev.ide.set l.val 0 l.isLt }) ∧
  (∀ s : State,
    let loaded (ir : Nat) (dr : BitVec 64) : State :=
      { s with dev := { s.dev with tapIr := ir, tapDr := dr }, outs := s.outs ++ [Output.tap dr] }
    let sampled := loaded 2 (Config.pins s.free)
    exec .tapIdcode s = .next (loaded 0 (BitVec.ofNat 64
      (Config.revision % 16 * 2 ^ 28 + 0xC808 * 2 ^ 12 + Config.manufacturer.toNat * 2 + 1))) ∧
    exec .tapBypass s = .next (loaded 1 0) ∧
    exec .tapSamplePreload s = .next { sampled with free := s.free + 1 } ∧
    exec .tapExtest s = .next (loaded 3 s.dev.tapDr)) ∧
  (∀ s : State, (s.dev.dbg = true → Stutters (.invasiveDebugEnable true) s) ∧
    Stutters (.invasiveDebugEnable false) s ∧
    (s.dev.dbg = false → Completes (.invasiveDebugEnable true) s (fun t => NoJobOpen t ∧
      (s.liveJobs = [] → t.dev.dbg = true ∧ t.dev.keys = s.dev.keys.filter (fun e => e.1 == 0) ∧
        ∀ p < 24, (t.dev.port p).tx = none ∧ (t.dev.port p).rx = none) ∧
      (s.liveJobs ≠ [] → t.dev.dbg = false ∧ t.dev.dbgPend = true ∧ t.dev.keys = s.dev.keys)))) ∧
  (∀ s : State, Completes .pldmMonitor s (fun t => t.dev = s.dev ∧ t.mem = s.mem ∧ t.cores = s.cores ∧
    ∃ body, t.outs = s.outs ++ [Output.pldm body] ∧ 
      body.take 3 = [(s.dev.power.pkgW : Int), (s.dev.power.modW : Int), s.dev.power.temp])) ∧
  (∀ (s : State) (stage : Fin 4) (image : Nat), DevBecomes (.pldmFwUpdate (.image stage) image) s
    { s.dev with staged := Table.put s.dev.staged stage.val image }) ∧
  (∀ (s : State) (v : Nat), DevBecomes (.pldmFwUpdate .bifurcation v) s { s.dev with bifurNext := BitVec.ofNat 4 v }) ∧
  (∀ (s : State) (l : Fin 8) (stream : Fin 2),
    (s.dev.links.get l = none ∨ s.dev.bstep ≠ 5 → Stutters (.ideKmRequest l stream false) s) ∧
    (s.dev.links.get l ≠ none → s.dev.bstep = 5 → ∃ b : BitVec 4,
      (∀ i < 4, b.getLsbD i = if i = stream.val then true else (s.dev.ide.get l).getLsbD i) ∧
      exec (.ideKmRequest l stream false) s = .next { s with
        dev := { s.dev with ide := s.dev.ide.set l.val b l.isLt }, outs := s.outs ++ [Output.ideKm l.val stream.val] })) ∧
  (∀ (s : State) (l : Fin 8) (j : Fin 256) (w : BitVec 64),
    let k := s.job j.val
    let lost := Completes (.doorbellWrite ⟨l, j⟩ w) s (fun t =>
      t.job j.val = { k with rej := (k.rej + 1) % 2 ^ 24 } ∧ t.mem = s.mem)
    (s.dev.links.get l = none ∨ s.dev.bstep ≠ 5 → Stutters (.doorbellWrite ⟨l, j⟩ w) s) ∧
    (s.dev.bstep = 5 → s.dev.links.get l = some .full → k.bells.length < 256 → exec (.doorbellWrite ⟨l, j⟩ w) s =
      .next ((s.setJob j.val { k with
        bells := k.bells ++ [{ idx := w.toNat % 4096, link := l.val, lines := s.heldWrites l.val }] }).after
        (.doorbellServe j))) ∧
    (s.dev.bstep = 5 → s.dev.links.get l = some .full → 256 ≤ k.bells.length → lost) ∧
    (s.dev.bstep = 5 → s.dev.links.get l ≠ none → s.dev.links.get l ≠ some .full → lost)) ∧
  (∀ (s : State) (w : BitVec 64),
    (∀ n < 32, DevBecomes (.registerWrite (.io (0xFFF000000 + 8 * n)) w) s
      (s.dev.setDomain n { s.dev.domain n with ctl := w &&& 0x8777FFFF })) ∧
    Stutters (.registerWrite (.io 0xFFF000200) w) s ∧
    (∀ pa, ¬ IoRegister pa → Stutters (.registerWrite (.io pa) w) s) ∧
    (∀ n < 256, ∀ i < 64, FabBecomes (.registerWrite (.io (0xFFE000000 + 0x1000 * n + 8 * i)) w) s
      { s.fab with lmtN := Table.put s.fab.lmtN (64 * n + i) (w &&& 0x800000000000FFFF) }) ∧
    (∀ n < 64, exec (.registerWrite (.io (0xFFD000000 + 8 * n)) w) s =
      .next { s with hmask := Table.put s.hmask n (w &&& 0xFFFFFFFF) }) ∧
    (∀ c < 32, exec (.registerWrite (.io (0xFFD001000 + 0x40 * c)) w) s =
      .next { s with frq := Table.put s.frq c { Table.get s.frq c {} with base := w.toNat / 2 ^ 13 % 2 ^ 39 * 2 ^ 13 } }) ∧
    (∀ l : Fin 8, s.dev.links.get l = none ∨ s.dev.bstep ≠ 5 → ∀ o n, Stutters (.registerWrite (.bar0 l o n) w) s) ∧
    (∀ l : Fin 8, s.dev.links.get l ≠ none → s.dev.bstep = 5 → ∀ o n, ¬ Bar0Access o n →
      exec (.registerWrite (.bar0 l o n) w) s = .next { s with outs := s.outs ++ [Output.unsupported] } ∧
      s.readBar0 l.val o n = { s with outs := s.outs ++ [Output.unsupported] }) ∧
    (∀ l : Fin 8, s.dev.links.get l ≠ none → s.dev.bstep = 5 → ∀ o n, Bar0Access o n →
      ∃ v, s.readBar0 l.val o n = { s with outs := s.outs ++ [Output.readData v] }) ∧
    (∀ l : Fin 8, s.dev.links.get l ≠ none → s.dev.bstep = 5 → s.dev.msixPba.get l = 0 →
      DevBecomes (.registerWrite (.bar0 l 0x2000 8) w) s { s.dev with elogHead := w.toNat % 1024 }))

/-- R43 to R56, R59, R123, R198, R199, R35, R71, R72: flits, packets and UALink. A flit alone at a node goes through a port
that brings it nearer, or is taken at its destination; a message that its receiver admits is appended at the tail of its
buffer and acknowledged, one without room is held, one of a key that is no member is denied and counted, one that fails its
checks is refused, as any flit with one bit turned over does. The answer is a packet; when it arrives the source releases its
copy, records a denial, or sends the packet again, and another device is answered through the port that the route table names.
The local port of either end drops an answer whose key is no member.
Choices of the model it rests on are in the assumption log, entries 18, 20, 21, 22, 23, 24, 26, 96, 97, 109, 110, 111, 121. -/
def Obligations.FabricMovesAndAnswersPackets : Prop :=
  (∀ (s : State) (n : Fin 256) (f : Flit), OnlyFlit s n f → f.cls = 3 → (∃ p < 8, productive n.val f.dst p = true) →
    f.dst ≠ n.val →
    (ComesIn f → ∃ p < 8, productive n.val f.dst p = true ∧ p % 2 = f.plane ∧ exec (.routerCycle n) s = .next
      ({ s with fab := { s.fab with flits := hopped s.fab.flits f n p } }.route (portTo n.val p))) ∧
    (AtSource f → s.inFlight f < 128 → s.fab.starve = 0 → ∃ p < 8, productive n.val f.dst p = true ∧
      Completes (.routerCycle n) s (fun t => t.fab.flits = hopped s.fab.flits f n p ∧
        t.fab.pkts = s.fab.pkts ∧ t.fab.starve = 0 ∧ t.mem = s.mem ∧ t.cores = s.cores)) ∧
    (AtSource f → (∃ m ∈ neighbours n.val, s.fab.starve.getLsbD m = true) → Stutters (.routerCycle n) s)) ∧
  (∀ (s : State) (n : Fin 256) (f : Flit) (p : Pkt), OnlyFlit s n f → ComesIn f → f.cls = 3 → f.dst = n.val →
    f.block = 0 → s.pkt f.pid = some p →
    Completes (.routerCycle n) s (fun t => t.fab.flits = s.fab.flits.erase f ∧
      t.fab.pkts = replaced s p { p with head := true } ∧
      t.turns = s.turns ++ [Turn.event (.packetArrival p.pid [])])) ∧
  (∀ (s : State) (n : Fin 256), (128 ≤ Table.get s.fab.blocked n.val 0 → ∃ b : BitVec 256,
      (∀ i < 256, b.getLsbD i = if i = n.val then true else s.fab.starve.getLsbD i) ∧
      FabBecomes (.starve n) s { s.fab with starve := b }) ∧
    (Table.get s.fab.blocked n.val 0 < 128 → Stutters (.starve n) s)) ∧
  (∀ (s : State) (p : Pkt), Checked s p → p.ref = none → Admitted s p → p.payload.length ≤ 4096 →
    let b := (s.core p.dcore).rb.get p.buf
    (b.en = true → entrySize p.payload.length ≤ 4096 * 2 ^ b.lsz - occupied b → (s.ring (p.dcore / 16)).chunks = [] →
      (∀ t, (s.ring (p.dcore / 16)).thread = some t → (s.recd t.job t.record).cap.mode = 0) →
      Memory.wf s.mem = true →
      Completes (.packetArrival p.pid []) s (fun t =>
        (t.core p.dcore).rb.get p.buf = { b with tail := (b.tail + entrySize p.payload.length) % 2 ^ 19 } ∧
        Answered s t p .acked 5 ∧
        Memory.readN t.mem
            (0xFE * 2 ^ 56 + p.dcore % 4096 * 2 ^ 32 + (b.base * 4096 + b.tail % (4096 * 2 ^ b.lsz))) 8 =
          p.sdev % 4096 * 2 ^ 36 + p.score % 4096 * 2 ^ 24 + p.payload.length)) ∧
    (b.en = false ∨ 4096 * 2 ^ b.lsz - occupied b < entrySize p.payload.length →
      FabBecomes (.packetArrival p.pid []) s
        { s.fab with pkts := replaced s p { p with phase := .held, head := false, again := true } })) ∧
  (∀ (s : State) (p : Pkt), Checked s p → p.ref = none → s.memberN p.dst p.key = false →
    Completes (.packetArrival p.pid []) s (fun t => t.mem = s.mem ∧ t.cores = s.cores ∧
      t.fab.dropKeyN = counted s.fab.dropKeyN p.dst p.key ∧
      (¬ IsRequest p → Answered s t p .denied 6) ∧
      (IsRequest p → ∃ q, t.fab.pkts = replaced s p q ∧ q.phase = .lost))) ∧
  (∀ (s : State) (p : Pkt), Checked s p → p.ref = none → IsRequest p → s.memberN p.dst p.key = true →
    Completes (.packetArrival p.pid []) s (fun t => t.mem = s.mem ∧ t.cores = s.cores ∧
      Answered s t p .acked (if p.kind = 2 then 5 else 4))) ∧
  (∀ (s : State) (p : Pkt) (flips : List (Nat × Nat)), Checked s p → p.passes flips = false →
    Completes (.packetArrival p.pid flips) s (fun t => t.mem = s.mem ∧ t.cores = s.cores ∧
      ∃ a, t.fab.pkts = replaced s p { p with phase := .refused, head := false, arrived := 0 } ++ [a] ∧ Carries p a p.src 10)) ∧
  (∀ (p : Pkt) (b i : Nat), b ≤ (p.payload.length + 63) / 64 → i < 576 → p.sand = false → p.passes [(b, i)] = false) ∧
  (∀ (s : State) (a : Pkt) (pid : Nat), Checked s a → a.ref = some pid → a.kind ≠ 6 → s.memberN a.dst a.key = false →
    Completes (.packetArrival a.pid []) s (fun t => t.mem = s.mem ∧ t.cores = s.cores ∧
      t.fab.dropKeyN = counted s.fab.dropKeyN a.dst a.key ∧ ∀ q, s.pkt pid = some q → pid ≠ a.pid →
        t.pkt pid = some { q with phase := .lost })) ∧
  (∀ (s : State) (a : Pkt) (pid : Nat), Checked s a → a.ref = some pid → a.kind = 6 ∨ s.memberN a.dst a.key = true →
    Completes (.packetArrival a.pid []) s (fun t => t.mem = s.mem ∧ t.cores = s.cores ∧
      t.fab.pkts = s.fab.pkts.filter (fun q => q.pid != a.pid) ∧
      Turn.event (if a.kind = 10 then .refusedReceipt pid else if a.kind = 6 then .deniedReceipt pid
        else .acknowledgeReceipt pid) ∈ t.turns)) ∧
  (∀ (s : State) (p : Pkt), s.pkt p.pid = some p → s.answering p.pid = false →
    let rest := s.fab.pkts.filter (fun q => q.pid != p.pid)
    (∀ i ∈ [Instr.acknowledgeReceipt p.pid, .deniedReceipt p.pid],
      p.phase = (if i = .acknowledgeReceipt p.pid then .acked else .denied) → (∀ q ∈ rest, q.phase ≠ .queued) →
      (p.kind = 7 → p.origin = none → p.hart = none → p.reply.map (·.kind) ≠ some 6 →
        Completes i s (fun t => t.fab.pkts = rest ∧ t.mem = s.mem ∧ t.cores = s.cores)) ∧
      (p.kind = 7 → p.origin = none → p.hart = none → p.reply.map (·.kind) = some 6 →
        (s.ring (p.score / 16)).thread = none → (s.ring (p.score / 16)).parked = none →
        Completes i s (fun t => t.fab.pkts = rest ∧ (t.core p.score).tstk = (s.core p.score).tstk ||| 1)) ∧
      (∀ (from_ id : Nat) (port : Fin 24) (r : Reply), p.origin = some (from_, id) → p.reply = some r →
        (p.sand = false ∨ r.kind ≠ 4) → s.portOut (p.dst / 64) p.sdev p.addr = some port.val → s.memberP port.val p.key = true →
        let u := s.dev.port port.val
        Completes i s (fun t => t.fab.pkts = rest ∧ t.mem = s.mem ∧ t.cores = s.cores ∧
          t.dev = s.dev.setPort port.val { u with queue := u.queue ++
            [{ dev := p.sdev, key := p.key, id := id, own := false, body := .answer r.kind r.mask r.data }] }))) ∧
    (p.phase = .refused → Completes (.refusedReceipt p.pid) s (fun t =>
      t.fab.resendN = counted s.fab.resendN p.src 0 ∧ t.fab.flits = p.flits (!p.sand) ++ s.fab.flits ∧
      ∃ q, t.pkt p.pid = some q ∧ q.phase = .fly)) ∧
    (p.phase = .held → Completes (.messageResend p.pid) s (fun t =>
      t.fab.resendN = s.fab.resendN ∧ t.fab.flits = p.flits (!p.sand) ++ s.fab.flits ∧
      ∃ q, t.pkt p.pid = some q ∧ q.phase = .fly)) ∧
    (p.phase = .fly → p.ref = none → p.sand = true → p.open_ = true → Admitted s p → p.payload.length ≤ 4096 →
      let b := (s.core p.dcore).rb.get p.buf
      (b.en = false ∨ 4096 * 2 ^ b.lsz - occupied b < entrySize p.payload.length →
        Completes (.sandWindowEnd p.pid) s (fun t => t.mem = s.mem ∧
          (t.core p.dcore).rbovf.toNat / 2 ^ (16 * p.buf.val) % 65536 =
            min ((s.core p.dcore).rbovf.toNat / 2 ^ (16 * p.buf.val) % 65536 + 1) 65535 ∧
          ∃ q, t.pkt p.pid = some q ∧ q.phase = .acked)) ∧
      (b.en = true → entrySize p.payload.length ≤ 4096 * 2 ^ b.lsz - occupied b →
        let all : BitVec 64 := BitVec.ofNat 64 (2 ^ ((p.payload.length + 63) / 64) - 1)
        exec (.sandWindowEnd p.pid) s =
          .next (s.deliver { p with gone := all &&& ~~~p.arrived } (p.arrived &&& all))))) ∧
  (∀ (s : State) (f : Flit), s.fab.flits.find? (fun g => g.pid == f.pid && g.block == f.block && g.cls == 5 &&
      g.inp.isNone) = some f → 0 < f.block → s.pkt f.pid = none →
    FabBecomes (.sandSourceTimeout f.pid (f.block - 1)) s { s.fab with
      flits := s.fab.flits.erase f, sandLateN := counted s.fab.sandLateN f.src 0 }) ∧
  (∀ (s : State) (p : Fin 24) (u : Ulk) (b : UalTx) (q : List UalTx), s.dev.port p.val = u → u.txPend = none →
    (u.tx = none ∨ u.queue = [] → Stutters (.ualinkFlitTransmit p) s) ∧
    (u.tx ≠ none → u.queue = b :: q → u.txctr + 1 < 2 ^ 63 →
      let t : State := { s with
        dev := s.dev.setPort p.val { u with txctr := u.txctr + 1, queue := q }
        outs := s.outs ++ [Output.ualink p.val u.txctr ((Table.get s.fab.drt b.dev 0).toNat % 1024) b] }
      exec (.ualinkFlitTransmit p) s = .next (if q = [] then t else t.after (.ualinkFlitTransmit p))) ∧
    (u.tx ≠ none → u.queue = b :: q → u.txctr = 2 ^ 64 - 1 → Completes (.ualinkFlitTransmit p) s (fun t =>
      (t.dev.port p.val).halted = true ∧ (t.dev.port p.val).queue = u.queue ∧ (t.dev.port p.val).txctr = u.txctr ∧
      t.mem = s.mem ∧ t.cores = s.cores))) ∧
  (∀ (s : State) (p : Fin 24) (f : UalFlit) (u : Ulk), s.dev.port p.val = u → (u.rxPend = none ∨ f.ctr ≠ 0) →
    let next := match u.rxlast with
      | some n => n + 1
      | none => 0
    (u.rx = none ∨ f.ok = false ∨ f.ctr ≠ next →
      ((∀ o d, f.body ≠ .data true o d) → Stutters (.ualinkFlitReceive p f) s) ∧
      (∀ o d, f.body = .data true o d → FabBecomes (.ualinkFlitReceive p f) s
        { s.fab with dropSandP := counted s.fab.dropSandP p.val 0 })) ∧
    (u.rx ≠ none → f.ok = true → f.ctr = next →
      let d := s.dev.setPort p.val { u with rxlast := some f.ctr }
      let denial : UalTx := { dev := f.dev, key := f.key.toNat, id := f.id, own := false, body := .answer 6 0 [] }
      (s.memberP p.val f.key.toNat = false → ∀ h, f.body = .head h → Completes (.ualinkFlitReceive p f) s (fun t =>
        t.mem = s.mem ∧ t.cores = s.cores ∧ 
        (s.portOut (p.val / 6) f.dev h.off = none →
          t.fab = { s.fab with dropKeyP := counted s.fab.dropKeyP p.val f.key.toNat } ∧ t.dev = d) ∧
        ∀ o : Fin 24, s.portOut (p.val / 6) f.dev h.off = some o.val → s.memberP o.val f.key.toNat = true →
          t.fab = { s.fab with dropKeyP := counted s.fab.dropKeyP p.val f.key.toNat } ∧
          t.dev = d.setPort o.val { d.port o.val with queue := (d.port o.val).queue ++ [denial] })) ∧
      (s.memberP p.val f.key.toNat = true → s.memberN (ualNode p.val) f.key.toNat = false → ∀ h, f.body = .head h →
        h.kind ∈ [1, 3, 7, 8] → Completes (.ualinkFlitReceive p f) s (fun t =>
          t.mem = s.mem ∧ t.cores = s.cores ∧ t.fab.pkts = s.fab.pkts ∧
          t.fab.dropKeyN = counted s.fab.dropKeyN (ualNode p.val) f.key.toNat ∧
          ∀ o : Fin 24, s.portOut (p.val / 6) f.dev h.off = some o.val → s.memberP o.val f.key.toNat = true →
            t.dev = d.setPort o.val { d.port o.val with queue := (d.port o.val).queue ++ [denial] })) ∧
      (s.memberP p.val f.key.toNat = true → s.memberN (ualNode p.val) f.key.toNat = true → ∀ h, f.body = .head h →
        h.kind ∈ [1, 3, 7, 8] →
        Completes (.ualinkFlitReceive p f) s (fun t =>
          t.dev = d ∧ t.mem = s.mem ∧ t.cores = s.cores ∧
          ∃ q : Pkt, t.fab.pkts = s.fab.pkts ++ [q] ∧ q.kind = h.kind ∧ q.key = f.key.toNat ∧ q.score = h.score ∧
            q.sdev = f.dev ∧ q.dcore = h.core % 4096 ∧ q.dst = h.core / 16 % 256 ∧ q.buf = h.buf ∧ q.mseq = h.mseq.toNat ∧
            q.tag = h.tag ∧ q.payload.length = min h.len 4096 ∧ q.sand = h.sand ∧ q.atom = h.atom ∧
            q.origin = some (p.val, f.id) ∧ (q.phase = .forming ↔ h.sand = false ∧ h.len ≠ 0))) ∧
      (s.memberP p.val f.key.toNat = true → ∀ k m d, f.body = .answer k m d → ∀ q, s.pkt f.id = some q →
        q.phase = .away → q.away = some (f.dev, p.val) → q.sand = false → k = 6 ∨ s.memberN q.dst q.key = true →
        Completes (.ualinkFlitReceive p f) s (fun t => t.mem = s.mem ∧ t.cores = s.cores ∧
          Answered s t q (if k = 6 then .denied else .acked) k))))

/-! ### The host and its mailbox -/

/-- R78 to R83: the host-line cache and the host filter. A snoop recalls the package's copies and is answered by the
state of the half; a core's access to a half that does not allow it asks the host, whose GO sets the half's state; a host
request to a module line waits while a back-invalidate is outstanding, and else takes its bytes and its filter state. A link
that has not trained with CXL.cache and CXL.mem carries none of it. The requests that waited for an answer to a back-invalidate
come before everything else that is due (R97). Where a half must be evicted first, or write-backs wait for
the half, see the definitions.
Choices of the model it rests on are in the assumption log, entries 31, 57, 81, 82, 83, 84. -/
def Obligations.HostLinesFollowTheirProtocol : Prop :=
  (∀ (s : State) (h : Nat),
    let shared := s.recallFor h false
    let alone := s.recallFor h true
    let drop (t : State) : State := (t.putHalf h { t.half h with st := .i }).clearTag (h / 2)
    let open_ := s.cacheOpen h = true
    (¬ open_ → ∀ i ∈ [Instr.snpData h, Instr.snpInv h, Instr.snpCur h], Stutters i s) ∧
    (open_ → HalfIs s h .i → ∀ i ∈ [Instr.snpData h, Instr.snpInv h, Instr.snpCur h],
      exec i s = .next { s with outs := s.outs ++ [Output.rspIHitI h] }) ∧
    (HalfIs s h .i → Stutters (.hostLineEviction h) s) ∧
    (HalfIs s h .m →
      (open_ → exec (.snpData h) s =
        .next ((shared.putHalf h { shared.half h with st := .s }).emit (.rspSFwdM h (shared.hostData h)))) ∧
      (open_ → exec (.snpInv h) s = .next ((drop alone).emit (.rspIFwdM h (alone.hostData h)))) ∧
      (open_ → exec (.snpCur h) s = .next { s with outs := s.outs ++ [Output.rspVFwdV h (s.hostData h)] }) ∧
      exec (.hostLineEviction h) s = .next ((drop alone).emit (.dirtyEvict h (alone.hostData h))).retry) ∧
    (∀ st ∈ [Mesi.s, Mesi.e], HalfIs s h st →
      (open_ → exec (.snpData h) s =
        .next ((shared.putHalf h { shared.half h with st := .s }).emit (.rspSHitSE h))) ∧
      (open_ → exec (.snpInv h) s = .next ((drop alone).emit (.rspIHitSE h))) ∧
      (open_ → exec (.snpCur h) s = .next { s with outs := s.outs ++ [Output.rspVHitV h] }) ∧
      exec (.hostLineEviction h) s = .next ((drop alone).emit (.cleanEvictNoData h)).retry) ∧
    (∀ own, (s.half h).req = some own → Stutters (.hostLineEviction h) s)) ∧
  (∀ (s : State) (h c : Nat), isHostLine h = true →
    let asks (own : Bool) (o : Output) : State := (s.putHalf h { s.half h with req := some own }).emit o
    (HalfIs s h .i → (s.dieHalves h).length < 65536 →
      exec (.hostLineCoreRead h c) s = .next (asks false (.rdShared h)) ∧
      exec (.hostLineCoreWrite h c) s = .next (asks true (.rdOwn h))) ∧
    (HalfIs s h .s → Stutters (.hostLineCoreRead h c) s ∧
      exec (.hostLineCoreWrite h c) s = .next (asks true (.rdOwnNoData h))) ∧
    (HalfIs s h .e → Stutters (.hostLineCoreRead h c) s ∧
      exec (.hostLineCoreWrite h c) s = .next (s.putHalf h { st := .m, req := none })) ∧
    (HalfIs s h .m → Stutters (.hostLineCoreRead h c) s ∧ Stutters (.hostLineCoreWrite h c) s)) ∧
  (∀ (s : State) (h : Nat) (g : GoGrant) (d : BitVec 512) (own : Bool),
    (s.cacheOpen h = false ∨ (s.half h).req = none → Stutters (.goReceipt h g d) s) ∧
    (s.cacheOpen h = true → (s.half h).req = some own → s.backs = [] → Completes (.goReceipt h g d) s (fun t =>
      HalfIs t h (if own then (if (s.half h).st = .s then .m else .e) else match g with
        | .shared => .s
        | .exclusive => .e) ∧
      ((s.half h).st ≠ .i → t.mem = s.mem) ∧
      ((s.half h).st = .i → Memory.wf s.mem = true → Memory.readN t.mem (64 * h) 64 = d.toNat ∧
        SameMemoryOutside s t (64 * h) 64)))) ∧
  (∀ (s : State) (k : Fin 8) (l : Nat) (m : FilterSt) (d : BitVec 512) (mask : BitVec 64),
    s.dev.bstep ≠ 5 ∨ s.dev.links.get k ≠ some .full ∨ isModuleLine l = false →
    ∀ i ∈ [Instr.memRdShared ⟨k, l⟩, Instr.memRdAny ⟨k, l⟩, Instr.memWr ⟨k, l⟩ d mask m], Stutters i s) ∧
  (∀ (s : State) (k : Fin 8) (l : Nat) (st m : FilterSt) (d : BitVec 512) (mask : BitVec 64), FilterIs s l st →
    s.dev.bstep = 5 → s.dev.links.get k = some .full →
    let shared := s.recallFor l false
    let alone := s.recallFor l true
    let put := alone.hostPut l mask d
    exec (.memRdShared ⟨k, l⟩) s = .next ((shared.putFilt l { shared.filt l with
      st := if (shared.filt l).st = .a then .a else .s }).emit (.memData l (shared.hostData l))) ∧
    exec (.memRdAny ⟨k, l⟩) s =
      .next ((alone.putFilt l { alone.filt l with st := .a }).emit (.memData l (alone.hostData l))) ∧
    exec (.memWr ⟨k, l⟩ d mask m) s =
      .next (((put.putFilt l { put.filt l with st := m }).emit (.memCmp l)).bellsAfter l) ∧
    (Memory.wf alone.mem = true → ∀ i < 64, Memory.read put.mem (64 * l + i) =
      if mask.getLsbD i then d.extractLsb' (8 * i) 8 else Memory.read alone.mem (64 * l + i))) ∧
  (∀ (s : State) (k : Fin 8) (l : Nat) (st m : FilterSt) (inv : Bool) (held : List Instr) (d : BitVec 512)
    (mask : BitVec 64), s.dev.bstep = 5 → s.dev.links.get k = some .full → isModuleLine l = true →
    s.filt l = { st := st, bi := some inv, held := held } →
    ∀ i ∈ [Instr.memRdShared ⟨k, l⟩, Instr.memRdAny ⟨k, l⟩, Instr.memWr ⟨k, l⟩ d mask m],
      exec i s = .next (s.putFilt l { st := st, bi := some inv, held := held ++ [i] })) ∧
  (∀ (s : State) (l c : Nat) (st : FilterSt), FilterIs s l st →
    let asks (inv : Bool) (o : Output) : State := (s.putFilt l { st := st, bi := some inv, held := [] }).emit o
    (st = .n → Stutters (.biCoreRead l c) s ∧ Stutters (.biCoreWrite l c) s ∧ Stutters (.filterEviction l) s) ∧
    (st = .s → Stutters (.biCoreRead l c) s) ∧
    (st = .a → exec (.biCoreRead l c) s = .next (asks false (.biSnpData l))) ∧
    (st ≠ .n → exec (.biCoreWrite l c) s = .next (asks true (.biSnpInv l)) ∧
      exec (.filterEviction l) s = .next (asks true (.biSnpInv l)))) ∧
  (∀ (s : State) (l : Nat) (x : Filt) (inv : Bool) (d : BitVec 512), s.filt l = x → x.bi = some inv → s.backs = [] →
    Completes (.birspReceipt l .inv none) s (fun t => t.filt l = {} ∧ t.mem = s.mem ∧
      ∃ later, t.turns = x.held.map Turn.event ++ later) ∧
    (inv = false → Completes (.birspReceipt l .shared none) s (fun t => t.filt l = { st := .s } ∧ t.mem = s.mem)) ∧
    (inv = true → Stutters (.birspReceipt l .shared none) s) ∧
    (Memory.wf s.mem = true → Completes (.birspReceipt l .inv (some d)) s (fun t => t.filt l = {} ∧
      Memory.readN t.mem (64 * l) 64 = d.toNat ∧ SameMemoryOutside s t (64 * l) 64)))

/-- R29, R30, R36, R86 to R90, R96, R177: mailbox commands answer with their result and effect, and their completion posts
it; doorbells are served, each after the writes of its link that came before it; an SPDM exchange goes forward only in its
order; a TLB invalidation removes the translations it matches, and ends when what was translated through them has been
performed. A key comes wrapped under the key of the session that is open on its port, which FINISH draws anew. The order of SPDM
requests is the model's reading of DSP0274, and that closing a job empties its queue of doorbells is the model's choice (entry 113).
Choices of the model it rests on are in the assumption log, entries 12, 13, 14, 15, 85, 86, 87, 89, 92, 113, 130. -/
def Obligations.CommandsAnswerAndTakeEffect : Prop :=
  (∀ s : State, Started s 0 → exec .status s = .next
    (answered s 0 [s.devStat s.dev.mbxLink, BitVec.ofNat 64 (s.jobs.filter (fun e => e.2.st == .open_)).length])) ∧
  (∀ s : State, s.dev.mbxBusy = true → s.dev.mbxPost = none → s.dev.attReq = true →
    (s.dev.mbxCmd = 1 → exec .jobOpen s = .next (answered s 5 [])) ∧
    (s.dev.mbxCmd = 3 → exec .keyInstall s = .next (answered s 5 []))) ∧
  (∀ s : State, Started s 1 →
    let w := operandWord s 0
    let j := w % 256
    let key := w / 256 % 65536
    (s.openOperands = false → exec .jobOpen s = .next (answered s 2 [])) ∧
    (s.openOperands = true → (s.job j).st ≠ .closed → exec .jobOpen s = .next (answered s 6 [])) ∧
    (s.openOperands = true → (s.job j).st = .closed → (∃ e ∈ s.jobs, e.2.st ≠ .closed ∧ e.2.key = key) →
      exec .jobOpen s = .next (answered s 7 [])) ∧
    (s.openOperands = true → (s.job j).st = .closed → (∀ e ∈ s.jobs, e.2.st = .closed ∨ e.2.key ≠ key) →
      s.fab.roomFor (BitVec.ofNat 24 (operandWord s 4)) = true →
      Completes .jobOpen s (fun t => t.mem = s.mem ∧ t.dev.mbxPost = some (0, []) ∧
        (t.job j).st = .open_ ∧ (t.job j).key = key ∧ (t.job j).link = w / 2 ^ 24 % 8 ∧
        (t.job j).root = operandWord s 1 ∧ (t.job j).poolBase = operandWord s 2 ∧
        (t.job j).poolCount = operandWord s 3 % 8192 ∧ (t.job j).bells = [] ∧ (t.job j).recs = [] ∧
        (∀ n < 256, ∃ i < 64, Table.get t.fab.lmtN (64 * n + i) 0 = BitVec.ofNat 64 (2 ^ 63 + key))))) ∧
  (∀ s : State, Started s 2 →
    let j := operandWord s 0 % 256
    (256 ≤ operandWord s 0 → exec .jobClose s = .next (answered s 2 [])) ∧
    (operandWord s 0 < 256 → (s.job j).st ≠ .open_ → exec .jobClose s = .next (answered s 6 [])) ∧
    (operandWord s 0 < 256 → (s.job j).st = .open_ → Completes .jobClose s (fun t =>
      (t.job j).st = .closing ∧ (t.job j).bells = [] ∧ Turn.event (.jobCloseDrainDone (Fin.ofNat 256 j)) ∈ t.turns))) ∧
  (∀ (s : State) (j : Fin 256), (s.job j.val).st = .closing → (∀ c ∈ s.copies, c.key ≠ (s.job j.val).key) →
    (∀ p ∈ s.fab.pkts, p.key ≠ (s.job j.val).key) → (∀ e ∈ (s.job j.val).recs, e.2.st = .idle) →
    Completes (.jobCloseDrainDone j) s (fun t => (t.job j.val).st = .closed ∧ t.mem = s.mem ∧
      (∀ e ∈ t.fab.lmtN, e.2 ≠ BitVec.ofNat 64 (2 ^ 63 + (s.job j.val).key % 65536)) ∧
      (Started s 2 → operandWord s 0 % 256 = j.val → t.dev.mbxPost = some (0, [])) ∧
      (s.dev.dbgPend = true → (s.setJob j.val { s.job j.val with st := .closed }).liveJobs = [] →
        t.dev.dbg = true ∧ t.dev.keys = s.dev.keys.filter (fun e => e.1 == 0)))) ∧
  (∀ s : State, Started s 3 →
    let id := operandWord s 0
    let session := s.dev.spdm.toList.getD s.dev.mbxLink {}
    let inSession := session.session = true
    (¬ inSession → exec .keyInstall s = .next (answered s 5 [])) ∧
    (inSession → (id = 0 ∨ 4096 ≤ id) → exec .keyInstall s = .next (answered s 2 [])) ∧
    (inSession → 0 < id → id < 4096 → Config.unwrap session.kek (s.wrapped 9) = none →
      exec .keyInstall s = .next (answered s 4 [])) ∧
    (inSession → 0 < id → id < 4096 → ∀ m, Config.unwrap session.kek (s.wrapped 9) = some m →
      exec .keyInstall s = .next (answered (s.putKey id (2 * m + 3)) 0 []))) ∧
  (∀ s : State, Started s 4 → 0 < operandWord s 0 → operandWord s 0 < 4096 →
    exec .keyClear s = .next (answered
      { s with dev := { s.dev with keys := Table.erase s.dev.keys (operandWord s 0) } } 0 [])) ∧
  (∀ s : State, Started s 5 →
    let w := operandWord s 0
    let u := s.dev.port w
    let session := s.dev.spdm.toList.getD s.dev.mbxLink {}
    session.session = true → w < 24 →
    (Config.unwrap session.kek (s.wrapped 5) = none → exec .linkKey s = .next (answered s 4 [])) ∧
    (∀ m, Config.unwrap session.kek (s.wrapped 5) = some m → u.queue = [] → exec .linkKey s = .next (answered
      { s with dev := s.dev.setPort w { u with txPend := some (2 * m + 3) } } 0 []))) ∧
  (∀ s : State, Started s 6 → s.dev.mbxIe = false → Completes .warmReset s (fun t =>
    t.dev.mbxBusy = false ∧ t.dev.mbxRes = 0 ∧ ∃ b, t.turns = s.turns ++ [Turn.event (.moduleWarmReset b)])) ∧
  (∀ (s : State) (res : Nat) (ws : List Word), s.dev.mbxBusy = true → s.dev.mbxPost = some (res, ws) →
    s.dev.mbxIe = false → DevBecomes .mbxCompletion s { s.dev with
      mbxRes := res, mbxOut := Vector.ofFn (fun i => ws.getD i.val 0), mbxBusy := false, mbxPost := none }) ∧
  (∀ (s : State) (j : Fin 256) (b : Bell) (rest : List Bell), (s.job j.val).bells = b :: rest → s.bellWaits b = true →
    Stutters (.doorbellServe j) s) ∧
  (∀ (s : State) (j : Fin 256) (b : Bell) (rest : List Bell), (s.job j.val).bells = b :: rest → s.bellWaits b = false →
    b.tied = false →
    let i := b.idx
    let k := s.job j.val
    let refused := k.st ≠ .open_ ∨ s.dev.attReq = true ∨ k.poolCount ≤ i ∨ (s.recd j.val i).st ≠ .idle
    (refused → Completes (.doorbellServe j) s (fun t => t.mem = s.mem ∧
      t.job j.val = { k with bells := rest, rej := (k.rej + 1) % 2 ^ 24 })) ∧
    (¬ refused → rest = [] → ∀ t, (s.accept j.val i false = .done t ∨ s.accept j.val i false = .lost t) →
      (t.job j.val).bells = [b] →
      let p := t.setJob j.val { t.job j.val with bells := (t.job j.val).bells.drop 1 }
      exec (.doorbellServe j) s =
        .next (p.setJob j.val { p.job j.val with acc := ((p.job j.val).acc + 1) % 2 ^ 24 }))) ∧
  (∀ (s : State) (l : Fin 8),
    let p := s.dev.spdm.get l
    let ready := p.version = true ∧ p.caps = true ∧ p.algs = true
    let body (req : Nat) := Config.spdmBody l.val req
    Answers (.getVersion l) s l 0x84 True (body 0x84)
      { p with version := true, caps := false, algs := false, handshake := false } ∧
    Answers (.getCapabilities l) s l 0xE1 (p.version = true) (body 0xE1) { p with caps := true } ∧
    Answers (.negotiateAlgorithms l) s l 0xE3 (p.version = true ∧ p.caps = true) (body 0xE3) { p with algs := true } ∧
    Answers (.getDigests l) s l 0x81 ready (body 0x81) p ∧
    Answers (.getCertificate l) s l 0x82 ready (body 0x82) p ∧
    Answers (.challenge l false) s l 0x83 ready (body 0x83) p ∧
    Answers (.getMeasurements l false) s l 0xE0 ready (Config.measurements s.dev.meas s.dev.dbg) p ∧
    Answers (.keyExchange l) s l 0xE4 ready (body 0xE4) { p with handshake := true } ∧
    Answers (.finish l false) s l 0xE5 False (body 0xE5) p ∧
    (p.handshake = false → Answers (.finish l true) s l 0xE5 False (body 0xE5) p) ∧
    (s.dev.links.get l = none ∨ s.dev.bstep ≠ 5 → Stutters (.finish l true) s) ∧
    (s.dev.links.get l ≠ none → s.dev.bstep = 5 → p.handshake = true →
      let opened : Spdm := { p with handshake := false, session := true, kek := Config.freeNat s.free }
      exec (.finish l true) s = .next { s with
        dev := { s.dev with spdm := s.dev.spdm.set l.val opened l.isLt }
        outs := s.outs ++ [Output.spdm l.val 0xE5 (body 0xE5)], free := s.free + 1 }) ∧
    Answers (.endSession l) s l 0xEC (p.session = true) (body 0xEC) { p with session := false } ∧
    (s.dev.links.get l ≠ none → s.dev.bstep = 5 → ready → Completes (.challenge l true) s (fun t => t.dev.attReq = false ∧
      t.outs = s.outs ++ [Output.spdm l.val 0x83 (body 0x83)]))) ∧
  (∀ s : State, s.tlbiGo = true →
    (s.tlbiOp = 0 → Invalidates .tlbiPage s) ∧ (s.tlbiOp = 1 → Invalidates .tlbiKey s) ∧
    (s.tlbiOp = 2 → Invalidates .tlbiAll s) ∧
    (s.tlbiOp = 3 → exec .tlbiNothing s = .next { s with tlbiGo := false }) ∧
    (s.tlbiPerformed = false → Stutters .tlbiDone s) ∧
    ((∀ e ∈ s.cores, ∀ l ∈ e.2.tlb, ¬ Matches s l) → (∀ e ∈ s.tlb2, ∀ l ∈ e.2, ¬ Matches s l) → s.tlbiOp < 3 →
      s.tlbiPerformed = true → exec .tlbiDone s = .next { s with tlbiGo := false, tlbiGone := [] })) ∧
  (∀ s : State, s.tlbiGone = [] → s.tlbiPerformed = true) ∧
  (∀ (s : State) (l : Leaf) (c : Nat) (k : Core) (v : Nat × Line) (t : Thread), l ∈ s.tlbiGone → (c, k) ∈ s.cores → v ∈ k.l1 →
    (s.ring (c / 16)).thread = some t → t.key = l.key → (s.ring (c / 16)).isSpec (slotOf c) = true → v.2.sw ≠ 0 →
    l.frame ≤ 128 * (v.1 % 2 ^ 73) → 128 * (v.1 % 2 ^ 73) < l.frame + l.size → s.tlbiPerformed = false)

/-! ### The scheduler and chunks -/

/-- R98, R104, R107, R108, R110 to R112, R116, R120, R122, R124, R312: launches, nodes and rings. A launch whose traffic has drained and
whose release has been taken returns its record to idle with the next generation, and in an open job its successors get their edges; an
edge arms an idle record, is counted by a waiting one and held by any other; a node reads its word and ends, or arms its body; a thread
starts with the registers of R312; a stage parks after a reservation of 50 us; an interrupt, or a park, stops the thread, and enters the
handler of the ring's core once nothing is outstanding there, or is held.
That a stage which wants nothing starts its wait afresh (115), the order of stages in a pass (114), what a cancellation performs and when
(103), the save area and the slabs that an interrupt releases (35, 38) and the core that takes it (37) are the model's choices. Others it rests on are in the assumption log, entries
41, 42, 43, 44, 54. -/
def Obligations.LaunchesAdvanceTheirRecords : Prop :=
  (∀ (s : State) (j : Fin 256) (r : Fin 4096), (s.recd j.val r.val).st ≠ .completing → Stutters (.launchCompletion j r) s) ∧
  (∀ (s u : State) (j : Fin 256) (r : Fin 4096) (n : Snap),
    let c := s.recd j.val r.val
    let k := s.job j.val
    let released := s.releaseJob k.key
    c.st = .completing → c.snap = some n → s.launchTraffic j.val r.val = false → s.reports.contains (j.val, r.val) = false →
    c.bound = [] → c.cap.mode = 0 → n.cmplAddr = 0 →
    (released.backs ≠ [] → exec (.launchCompletion j r) s = .next released) ∧
    (released.backs = [] → released.writable k.key [k.poolBase + 512 * r.val] = (true, u) →
      let v := u.clearSched.clearSched.raiseCompletion j.val n
      let w := v.setRec j.val r.val { v.recd j.val r.val with
        st := .idle, gen := (n.gen + 1) % 65536, wait := 0, bound := [], cap := {}, want := 0, resv := none }
      let idle := (w.tryReport j.val r.val (some ((n.gen + 1) % 65536))).clearSched
      ((u.clearSched.job j.val).st = .closing →
        exec (.launchCompletion j r) s = .next ((idle.tellLoops j.val r.val c.status).after (.jobCloseDrainDone j))) ∧
      ((u.clearSched.job j.val).st = .open_ →
        let armed := if c.status = 0 then (Chosen n c.word).foldl (fun s x => s.edge j.val x) idle else idle
        exec (.launchCompletion j r) s = .next ((armed.tellLoops j.val r.val c.status).applyHeld j.val r.val 16)))) ∧
  (∀ (s : State) (j i : Nat), s.tied j i = false →
    let c := s.recd j i
    (c.st = .idle → ∀ t, (s.accept j i true = .done t ∨ s.accept j i true = .lost t) → s.edge j i = t) ∧
    (c.st = .waiting → 2 ≤ c.wait → s.edge j i = (s.setRec j i { c with wait := c.wait - 1 }).report j i) ∧
    (c.st ≠ .idle → c.st ≠ .waiting → c.held < 15 → s.edge j i = s.setRec j i { c with held := c.held + 1 }) ∧
    (c.st ≠ .idle → c.st ≠ .waiting → 15 ≤ c.held →
      s.edge j i = s.log (entry (s.job j).key 0xFFF 0x0022 1 0 0 [BitVec.ofNat 64 i]))) ∧
  (∀ (s : State) (j : Fin 256) (r : Fin 4096), (s.recd j.val r.val).snap = none →
    Stutters (.conditionEval j r) s ∧ Stutters (.switchEval j r) s ∧ Stutters (.loopIteration j r) s) ∧
  (∀ (s t : State) (j : Fin 256) (r : Fin 4096) (n : Snap) (w : Nat), IsNode s j r 1 n → Evaluates s j r n w t →
    exec (.conditionEval j r) s = .next (ended t j r 0)) ∧
  (∀ (s t : State) (j : Fin 256) (r : Fin 4096) (n : Snap) (w : Nat), IsNode s j r 3 n → Evaluates s j r n w t →
    (w < n.nsucc → exec (.switchEval j r) s = .next (ended t j r 0)) ∧
    (n.nsucc ≤ w → exec (.switchEval j r) s = .next (ended (t.log (entry (t.job j.val).key 0xFFF 0x0023 1 0 0
      [BitVec.ofNat 64 w, BitVec.ofNat 64 r.val])) j r 0))) ∧
  (∀ (s t : State) (j : Fin 256) (r : Fin 4096) (n : Snap) (w : Nat), IsNode s j r 2 n → n.itw = 0 →
    let u := s.startNode j.val r.val
    ((u.recd j.val r.val).bodyOut = true → exec (.loopIteration j r) s = .next u) ∧
    ((u.recd j.val r.val).bodyOut = false → (u.recd j.val r.val).armBody = false →
      u.clearSched.evalWord j.val r.val n = .ok w t →
      (w = 0 ∨ (u.recd j.val r.val).iter = n.cap → exec (.loopIteration j r) s = .next (ended t j r 0)) ∧
      (w ≠ 0 → (u.recd j.val r.val).iter ≠ n.cap → exec (.loopIteration j r) s = .next
        ((t.setRec j.val r.val { t.recd j.val r.val with armBody := true }).armBody j.val r.val n)))) ∧
  (∀ (s : State) (j : Fin 256) (r : Fin 4096) (n : Snap) (st : Nat), IsNode s j r 2 n →
    let c := s.recd j.val r.val
    c.bodyStatus = some st → c.bodyOut = true →
    (st = 0 → exec (.loopBodyDone j r) s = .next ((s.setRec j.val r.val
      { c with bodyOut := false, bodyStatus := none, iter := c.iter + 1 }).after (.loopIteration j r))) ∧
    (st ≠ 0 → exec (.loopBodyDone j r) s = .next
      (ended (s.setRec j.val r.val { c with bodyOut := false, bodyStatus := none }) j r st))) ∧
  (∀ (s : State) (us : Nat), s.dev.bstep < 3 → Stutters (.ringAssignment us) s) ∧
  (∀ (s : State) (us : Nat), 3 ≤ s.dev.bstep →
    let aged := ((s.catchUp.lapse.ageWaits us).ageStages us).replayParks
    let yielded := (aged.stages.foldl State.yieldStage (aged, (aged.stages.map aged.want).sum)).1
    let served := yielded.grants [] 1024
    let ended := served.1.endStages
    let t := ended.stages.foldl (fun t u => t.setRec u.j u.i { t.recd u.j u.i with
      resv := if served.2 = some (u.j, u.i) then some ((u.rc.resv.map (· + us)).getD 0) else none }) ended
    exec (.ringAssignment us) s = .next (match served.2 with
      | some (j, i) =>
          if (t.recd j i).resv.getD 0 < 50 then t.unstop none else t.after (.park (Fin.ofNat 256 j) (Fin.ofNat 4096 i))
      | none => t.unstop none)) ∧
  (∀ (s : State) (but : Option Nat), NoPark s → s.unstop but = s) ∧
  (∀ (s : State) (fuel : Nat) (skip : List (Nat × Nat × Nat × Nat)),
    let first := firstWanter (s.wanters.filter (fun w => !skip.contains w.rank))
    (first = none → s.grants skip (fuel + 1) = (s, none)) ∧
    (∀ r u since, first = some (.thread r u since) → s.ringFree r = true →
      s.grants skip (fuel + 1) = (s.resumeRing r).grants skip fuel) ∧
    (∀ u, first = some (.stage u) → u.rc.st = .ready → u.rc.replays = false → 0 < s.want u →
      let free := s.freeFor (u.j, u.i)
      (free.length < u.n.rmin → s.grants skip (fuel + 1) = (s, some (u.j, u.i))) ∧
      (u.n.rmin ≤ free.length → free ≠ [] →
        s.grants skip (fuel + 1) = (s.grant u (free.take (min (s.want u) free.length))).grants skip fuel)) ∧
    (∀ u, first = some (.stage u) → u.rc.st = .running → (∀ r < 256, s.ringFree r = false) →
      s.grants skip (fuel + 1) = (s, none))) ∧
  (∀ (s : State) (n : Nat) (u : Stage), s.stages = [u] →
    let w := if 0 < s.want u ∨ s.parkedOf u.j u.i ≠ [] then u.rc.want + n else 0
    ((s.ageStages n).recd u.j u.i).want = w ∧ ((s.ageStages n).recd u.j u.i).eprio = min 7 (u.n.prio + w / 1000)) ∧
  (∀ (s : State) (us : Nat), s.jobs = [] → s.reports = [] → 3 ≤ s.dev.bstep → NoPark s →
    Completes (.ringAssignment us) s (fun t => t.mem = s.mem ∧ t.turns = s.turns ∧
      (∀ c, (∀ o n y, (s.core c).wait ≠ .qpop o n y) → t.core c = s.core c) ∧
      (∀ c o n y, (s.core c).wait = .qpop o n y → t.core c = { s.core c with wait := .qpop o (n + us) y }) ∧
      ∀ r, t.ring r = { s.ring r with reserved := none })) ∧
  (∀ (s : State) (j i r : Nat) (n : Snap), (s.ring r).key = (s.job j).key → (s.recd j i).cap.mode = 0 → r < 256 →
    let t := s.startThread j i r n
    let c := t.core (16 * r)
    let x (i : Fin 64) : Word := c.x.get i
    (t.ring r).chunkCtr = 0 ∧ (t.ring r).chunks = [] ∧ (t.ring r).head = 0 ∧ (t.ring r).smev = 0 ∧
      (∃ th, (t.ring r).thread = some th ∧ th.job = j ∧ th.record = i ∧ th.key = (s.job j).key ∧ th.pos = 0) ∧
      c.pc = BitVec.ofNat 64 n.entry ∧ c.handler = false ∧ c.vl = 0 ∧ c.vtype = 0x30 ∧ c.fflags = 0 ∧ c.frm = 0 ∧
      c.tren = 0 ∧ c.levels = [] ∧ c.regions = [] ∧ c.tstk = 0 ∧ c.v = Vector.replicate 64 0 ∧
      c.t = Vector.replicate 4 0 ∧ x 1 = BitVec.ofNat 64 ((s.job j).poolBase + 512 * i + 0x0C0) ∧
      x 2 = BitVec.ofNat 64 (s.recd j i).started ∧
      x 3 = BitVec.ofNat 64 (if n.hasin then 0 else (s.recd j i).total) ∧
      x 4 = BitVec.ofNat 64 (n.gen * 65536 + i % 4096) ∧ (∀ q : Fin 64, 4 < q.val → x q = 0) ∧
      c.srseed = Config.freeWord s.free) ∧
  (∀ (s : State) (j : Fin 256) (r : Fin 4096), s.stages.find? (fun u => u.j == j.val && u.i == r.val) = none →
    Stutters (.park j r) s) ∧
  (∀ (s : State) (j : Fin 256) (r : Fin 4096) (u v : Stage) (g : Nat),
    s.stages.find? (fun u => u.j == j.val && u.i == r.val) = some u → u.rc.st = .ready → s.parkTargets u = [(g, v)] →
    let free := (s.freeFor (u.j, u.i)).length
    let t := s.unstop (some g)
    (u.rc.resv.getD 0 < 50 → exec (.park j r) s = .next (s.unstop none)) ∧
    (50 ≤ u.rc.resv.getD 0 → u.n.rmin = free + 1 →
      (t.parkable g = true → exec (.park j r) s = .next (t.parkRing g (u.j, u.i))) ∧
      (t.parkable g = false → exec (.park j r) s = .next t))) ∧
  (∀ (s : State) (r : Nat) (u : Nat × Nat) (th : Thread), (s.ring r).thread = some th → (s.ring r).chunks = [] →
    let c := 16 * r + (s.ring r).head.val
    let t := s.parkRing r u
    ((s.core c).stopping = none → t.core c = { s.core c with stopping := some .park } ∧ t.mem = s.mem ∧ t.rings = s.rings ∧
      t.turns = (if s.quiet r then s.turns ++ [Turn.event (.ringAssignment 0)] else s.turns)) ∧
    ((s.core c).stopping = some .park → s.quiet r = false → t = s)) ∧
  (∀ (s : State) (r : Fin 256), (s.ring r.val).thread = none →
    let c := s.core (16 * r.val)
    (c.handler = true → exec (.interruptDelivery r .sched) s =
      .next (s.setCore (16 * r.val) { c with held := c.held ++ [.sched] })) ∧
    (c.handler = false → c.stopping = none → c.wait = .none →
      exec (.interruptDelivery r .sched) s = .next (s.setCore (16 * r.val) (interruptedBy c 0x40 0)) ∧
      exec (.interruptDelivery r .scopeMiss) s =
        .next (s.setCore (16 * r.val) (interruptedBy c 0x41 (s.ring r.val).smevAt)))) ∧
  (∀ (s : State) (r : Fin 256) (cl : Fin 32), (s.ring r.val).thread = none →
    let i := (Table.get s.frq cl.val {}).icore
    let c := s.core i
    i / 16 = r.val →
    (c.handler = true → exec (.interruptDelivery r (.faultQueue cl)) s =
      .next (s.setCore i { c with held := c.held ++ [.faultQueue cl] })) ∧
    (c.handler = false → c.stopping = none → c.wait = .none →
      exec (.interruptDelivery r (.faultQueue cl)) s = .next (s.setCore i (interruptedBy c 0x42 0)))) ∧
  (∀ (s : State) (r : Fin 256) (th : Thread) (cur : Core),
    let c := 16 * r.val + (s.ring r.val).head.val
    (s.ring r.val).thread = some th → (s.ring r.val).chunks = [] → s.core c = cur → cur.handler = false →
    cur.wait.atomic = false →
    (cur.stopping = none → Completes (.interruptDelivery r .sched) s (fun t =>
      t.core c = { cur with stopping := some .sched } ∧ t.mem = s.mem ∧
      t.turns = (if s.quiet r.val then s.turns ++ [Turn.event (.interruptDelivery r .sched)] else s.turns))) ∧
    (cur.stopping = some .sched → s.quiet r.val = false → Stutters (.interruptDelivery r .sched) s) ∧
    (cur.stopping = some .sched → s.quiet r.val = true → cur.ctxbase = 0 → s.fab.pkts = [] → Memory.wf s.mem = true →
      Completes (.interruptDelivery r .sched) s (fun t =>
        t.core c = { interruptedBy cur 0x40 0 with
          mslabs := 0, stopping := none, spill := []
          saved := some { pc := cur.pc, strip := cur.strip, lanes := cur.lanes, mreq := cur.mreq, wait := cur.wait } } ∧
        ∀ q : Fin 64, q.val ≠ 0 → Memory.readN t.mem (0xFE * 2 ^ 56 + c % 4096 * 2 ^ 32 + 0x40000 + 8 * q.val) 8 =
          (cur.x.get q).toNat))) ∧
  (∀ (s : State) (r : Fin 256) (th : Thread), (s.ring r.val).thread = some th →
    ((s.recd th.job th.record).st = .completing → exec (.interruptDelivery r .cancel) s = .next (s.endRing r.val)) ∧
    ((s.recd th.job th.record).st ≠ .completing → Stutters (.interruptDelivery r .cancel) s))

/-- R65, R66, R136, R139, R143 to R146, R149, R152 to R154, R156, R186: the events of chunks. Live-outs that agree with
what a chunk has exposed make its live-ins actual, others squash it; a broadcast squashes a version that has read its words, and
updates those it has not written; the finished last chunk commits and its loop goes on past the `chk`; a chunk that leaves
goes on at its target; a waiting core goes on once its chunk is the oldest; a response frees its entry for the request that
has waited longest.
Choices of the model it rests on are in the assumption log, entries 48, 49, 50, 52, 55, 58, 105. -/
def Obligations.ChunksFollowTheirOrder : Prop :=
  (∀ (s : State) (c : Fin 4096), GoesOn (.commitPointExecute c) s c .commitPoint ∧
    GoesOn (.deferredFaultReplay c) s c .deferred ∧ GoesOn (.overflowStallEnd c) s c .overflow) ∧
  (∀ (s : State) (c : Fin 4096) (g : Forked) (k : Chunk), LastChunk s c g k →
    let h := s.core c.val
    let r := s.ring (c.val / 16)
    (k.finished = true → k.idx + 1 = g.m → h.handler = false → h.stopping = none →
      Completes (.chunkCommit c) s (fun t => t.mem = s.mem ∧
        t.core c.val = { h with
          fflags := r.tflags ||| h.fflags, levels := g.under, pc := g.e + 8, wait := .none, rfilter := [] } ∧
        (t.ring (c.val / 16)).forked = none ∧ (t.ring (c.val / 16)).chunks = [] ∧
        (t.ring (c.val / 16)).chunkCtr = k.num + 1 ∧ (t.ring (c.val / 16)).ns = (r.ns || k.ns) ∧
        learnedStride { t with cur := c.val } g.f = fun q => h.x.get q - k.kept.x.get q)) ∧
    (k.finished = false → Stutters (.chunkCommit c) s) ∧
    (∀ tgt d w, h.wait = .leave tgt (some (d, w)) → Completes (.loopExit c) s (fun t => t.mem = s.mem ∧
      (t.core c.val).pc = tgt ∧ t.core c.val = { ({ h with
        fflags := r.tflags ||| h.fflags, levels := g.under, pc := tgt, wait := .none, rfilter := [] } : Core).setX d w with
          pc := tgt } ∧
      (t.ring (c.val / 16)).forked = none ∧ (t.ring (c.val / 16)).chunks = [] ∧
      (t.ring (c.val / 16)).chunkCtr = k.num + 1)) ∧
    (h.wait = .none → Stutters (.loopExit c) s)) ∧
  (∀ (s : State) (c : Fin 4096) (g : Forked) (k : Chunk), (s.ring (c.val / 16)).forked = some g →
    (s.ring (c.val / 16)).chunkAt (slotOf c.val) = some k →
    (k.restart = false → Stutters (.chunkRestart c) s) ∧
    (k.restart = true → Completes (.chunkRestart c) s (fun t => t.mem = s.mem ∧
      (s.ring (c.val / 16)).setChunk { k with restart := false } = t.ring (c.val / 16) ∧
      let h := t.core c.val
      h.x = k.kept.x ∧ h.p = k.kept.p ∧ h.vl = k.kept.vl ∧ h.vtype = k.kept.vtype ∧ h.v = Vector.replicate 64 0 ∧
        h.t = Vector.replicate 4 0 ∧ h.fflags = 0 ∧ h.pc = g.f + 12 ∧ h.levels.tail = g.under))) ∧
  (∀ (s : State) (q : Fin 256) (g : Forked) (i : Nat) (l : Live) (k : Chunk),
    let r := s.ring q.val
    r.forked = some g → r.liveOuts = [(i, l)] → r.chunks.find? (fun k => k.idx == i + 1) = some k → k.restart = false →
    k.finished = false → r.chunkAt k.slot = some k →
    let agrees := (∀ n : Fin 64, k.exX.getLsbD n.val = true → k.kept.x.get n = l.x.get n) ∧
      (∀ n : Fin 16, k.exP.getLsbD n.val = true → k.kept.p.get n = l.p.get n) ∧
      (k.exS.getLsbD 0 = true → k.kept.vl = l.vl) ∧ (k.exS.getLsbD 1 = true → k.kept.vtype = l.vtype) ∧
      (k.exS.getLsbD 2 = true → k.kept.frm = l.frm) ∧ (k.exS.getLsbD 3 = true → k.kept.tshape = l.tshape)
    let final := match r.chunks.find? (fun p => p.idx == i) with
      | some p => p.actual
      | none => true
    let actual := r.setChunk { k with kept := l, actual := final, arrived := true }
    (agrees → Completes (.liveOutArrival q) s (fun t => t.mem = s.mem ∧ t.ring q.val = { actual with liveOuts := [] } ∧
      (t.core (16 * q.val + k.slot.val)).vl =
        (if k.exS.getLsbD 0 = true ∨ k.wrS.getLsbD 0 = true then (s.core (16 * q.val + k.slot.val)).vl else l.vl) ∧
      ∀ n : Fin 64, (t.core (16 * q.val + k.slot.val)).x.get n =
        if k.exX.getLsbD n.val = true ∨ k.wrX.getLsbD n.val = true then (s.core (16 * q.val + k.slot.val)).x.get n
        else l.x.get n)) ∧
    (¬ agrees → exec (.liveOutArrival q) s =
      .next (((s.setRing q.val { actual with liveOuts := [] }).squash q.val k.slot).nudge q.val))) ∧
  (∀ (s : State) (q : Fin 256) (b : Bcast) (rest : List Bcast) (k : Chunk),
    let r := s.ring q.val
    let c := 16 * q.val + b.next % 16
    let t := s.setRing q.val { r with bcasts := rest }
    r.bcasts = b :: rest → r.chunkAt (Fin.ofNat 16 b.next) = some k → b.scratch = false →
    (∀ l, s.line c b.line = some l → IsVersion l → l.soft = false → wordsOf b.off b.data.length &&& l.er ≠ 0 →
      exec (.storeBroadcastArrival q) s = .next ((t.squash q.val (Fin.ofNat 16 b.next)).nudge q.val)) ∧
    (∀ l, s.line c b.line = some l → IsVersion l → l.soft = false → wordsOf b.off b.data.length &&& l.er = 0 →
      r.nextAfter (Fin.ofNat 16 b.next) = none → ∃ (d : BitVec 1024) (w : BitVec 16),
        (∀ i < 16, w.getLsbD i = (l.bad.getLsbD i &&
          !(decide (b.off ≤ 8 * i ∧ 8 * i + 8 ≤ b.off + b.data.length) && !l.sw.getLsbD i))) ∧
        (∀ i < b.data.length, b.off + i < 128 → l.sw.getLsbD ((b.off + i) / 8) = false →
          (d.extractLsb' (8 * (b.off + i)) 8) = b.data.getD i 0) ∧
        (∀ i < 128, (i < b.off ∨ b.off + b.data.length ≤ i ∨ l.sw.getLsbD (i / 8) = true) →
          d.extractLsb' (8 * i) 8 = l.data.extractLsb' (8 * i) 8) ∧
        exec (.storeBroadcastArrival q) s = .next ((t.putLine c b.line { l with data := d, bad := w }).nudge q.val)) ∧
    (s.line c b.line = none → r.nextAfter (Fin.ofNat 16 b.next) = none →
      exec (.storeBroadcastArrival q) s = .next (t.nudge q.val))) ∧
  (∀ (s : State) (q : Fin 256), (s.ring q.val).bcasts = [] → Stutters (.storeBroadcastArrival q) s) ∧
  (∀ (s : State) (c : Fin 4096) (ln : Nat) (l : Line), s.line c.val ln = some l →
    (IsVersion l → ∃ l', exec (.lookBackProbe c ln) s = .next (s.putLine c.val ln l') ∧
      l' = { l with data := l'.data, present := l'.present, bad := l'.bad } ∧ ∀ i < 16,
        let absent := l.present.getLsbD i = false ∧ l.sw.getLsbD i = false
        (absent → ∀ v poisoned, s.lookBack c.val ln i = some (v, poisoned) →
          l'.present.getLsbD i = true ∧ l'.bad.getLsbD i = poisoned ∧ ∀ b < 8,
            (l'.data.extractLsb' (64 * i + 8 * b) 8).toNat =
              if l.sdirty.getLsbD (8 * i + b) then (l.data.extractLsb' (64 * i + 8 * b) 8).toNat
              else v / 2 ^ (8 * b) % 256) ∧
        ((¬ absent ∨ s.lookBack c.val ln i = none) →
          l'.present.getLsbD i = l.present.getLsbD i ∧ l'.data.extractLsb' (64 * i) 64 = l.data.extractLsb' (64 * i) 64)) ∧
    (IsVersion l → l.soft = false → (s.ring (c.val / 16)).isSpec (slotOf c.val) = true → ∀ fwd,
      exec (.siblingInvalidation c ln fwd) s =
        .next (s.putLine c.val ln { l with coh := .inv, present := l.present &&& l.sw })) ∧
    (l.st = .n → Stutters (.lookBackProbe c ln) s ∧ Stutters (.siblingInvalidation c ln false) s)) ∧
  (∀ (s : State) (c : Fin 4096) (e : Fin 64),
    let rest := (s.core c.val).oreqs.filter (fun q => q.1 != e.val)
    Completes (.loadResponse c e) s (fun t => t.mem = s.mem ∧ t.rings = s.rings ∧
      ((∀ q ∈ rest, q.1 < 64) → t.core c.val = { s.core c.val with oreqs := rest }) ∧
      ∀ w, rest.find? (fun q => 64 ≤ q.1) = some w → t.core c.val = { s.core c.val with
        oreqs := rest.map (fun q => if q.1 = w.1 then (e.val, q.2) else q) }))

/-- R183 to R186, R188, R191, R223, R224: one row of the coherence protocol at a time. A home that is idle serves a request
by the table of R184; a request that finds another in progress waits; a message is acted on where it arrives, and a
requester that has what it was promised holds the line. A row whose message or copy is not there changes nothing. That a write-back
which the host keeps waiting stands in a list of its own is the model's choice (entry 57). Others it rests on are in the assumption
log, entries 30, 31, 83, 90, 93. -/
def Obligations.CoherenceFollowsItsTables : Prop :=
  (∀ (s : State) (c : Fin 4096) (ln : Nat), Asks s c ln .getS → Idle s c ln →
    let data := [message (.data 0 false) c c ln]
    ((s.dir ln).st = .u → exec (.gets c ln) s = .next (served s c ln .getS (.p [c.val]) data)) ∧
    (∀ t, (s.dir ln).st = .p t →
      (c.val ∈ t → exec (.gets c ln) s = .next (served s c ln .getS (.p t) data)) ∧
      (c.val ∉ t → t.length < 4 → exec (.gets c ln) s = .next (served s c ln .getS (.p (t ++ [c.val])) data)) ∧
      (c.val ∉ t → 4 ≤ t.length → ∃ g : BitVec 64,
        (∀ i < 64, g.getLsbD i = decide (∃ o ∈ c.val :: t, o / 64 = i)) ∧
        exec (.gets c ln) s = .next (served s c ln .getS (.c g) data))) ∧
    (∀ g, (s.dir ln).st = .c g → ∃ g' : BitVec 64,
      (∀ i < 64, g'.getLsbD i = (g.getLsbD i || i == c.val / 64)) ∧
      exec (.gets c ln) s = .next (served s c ln .getS (.c g') data)) ∧
    (∀ o, (s.dir ln).st = .x o → o ≠ c.val →
      exec (.gets c ln) s = .next (served s c ln .getS (.p [o, c.val]) [message (.fwd false) o c ln]))) ∧
  (∀ (s : State) (c : Fin 4096) (ln : Nat),
    OwnershipServed (.getx c ln) s c ln .getX ∧ OwnershipServed (.upg c ln) s c ln .upg) ∧
  (∀ e ∈ [(Instr.gets, ReqKind.getS), (Instr.getx, ReqKind.getX), (Instr.upg, ReqKind.upg)],
    ∀ (s : State) (c : Fin 4096) (ln : Nat), Asks s c ln e.2 →
      ((s.dir ln).busy ≠ none → exec (e.1 c ln) s =
        .next (s.putDir ln { s.dir ln with queue := (s.dir ln).queue ++ [(c.val, e.2)] })) ∧
      ((s.dir ln).busy = none → (s.dir ln).contributors = .u → (s.dir ln).records.filter (· != c.val) ≠ [] →
        exec (e.1 c ln) s = .next (sent (s.putDir ln { s.dir ln with busy := some (c.val, e.2) })
          ((((s.dir ln).records.filter (· != c.val)).eraseDups).map (fun o => message .drain o c ln))))) ∧
  (∀ (s : State) (c : Fin 4096) (ln : Nat), s.line c.val ln = none →
    Stutters (.puts c ln) s ∧ Stutters (.putx c ln) s) ∧
  (∀ (s : State) (c : Fin 4096) (ln : Nat) (l : Line), s.line c.val ln = some l → l.st = .n → l.soft = false →
    let u := s.eraseLine c.val ln
    let queued (k : ReqKind) : State := u.putDir ln { s.dir ln with queue := (s.dir ln).queue ++ [(c.val, k)] }
    let invalidating := ∃ m ∈ s.msgs, m.line = ln ∧ (m.kind = .inval ∨ m.kind = .ack)
    let forwarded := ∃ m ∈ s.msgs, m.line = ln ∧ m.to_ = c.val ∧ ∃ x, m.kind = .fwd x
    (l.coh = .sh → (((s.dir ln).busy ≠ none ∧ invalidating) ∨ ((s.dir ln).busy = none ∧ ∃ g, (s.dir ln).st = .c g) →
        exec (.puts c ln) s = .next u) ∧
      ((s.dir ln).busy ≠ none → ¬ invalidating → exec (.puts c ln) s = .next (queued .putS)) ∧
      (∀ t, (s.dir ln).busy = none → (s.dir ln).st = .p t →
        let t' := t.filter (· != c.val)
        exec (.puts c ln) s = .next (u.putDir ln { s.dir ln with st := if t' = [] then .u else .p t' }))) ∧
    (l.coh = .own → ((s.dir ln).busy ≠ none → forwarded → exec (.putx c ln) s = .next u) ∧
      ((s.dir ln).busy ≠ none → ¬ forwarded → exec (.putx c ln) s = .next (queued .putX)) ∧
      ((s.dir ln).busy = none → (s.dir ln).st = .x c.val →
        exec (.putx c ln) s = .next (u.putDir ln { s.dir ln with st := .u })))) ∧
  (∀ (s : State) (o c : Fin 4096) (ln : Nat) (rest : List Msg), Arrives s (message .inval o c ln) rest →
    let u := taken s rest
    let ack := [message .ack o c ln]
    (s.line o.val ln = none → exec (.invalidationReceipt o ln) s = .next (sent u ack)) ∧
    (∀ l, s.line o.val ln = some l → l.soft = false →
      (l.st = .n → exec (.invalidationReceipt o ln) s = .next (sent (u.eraseLine o.val ln) ack)) ∧
      (IsVersion l → (s.ring (o.val / 16)).isSpec (slotOf o.val) = true →
        (s.isSibling o.val (some c.val) = true → l.er ≠ 0 ∨ l.sw ≠ 0 → exec (.invalidationReceipt o ln) s =
          .next (sent (u.putLine o.val ln { l with coh := .inv, present := l.present &&& l.sw }) ack)) ∧
        (s.isSibling o.val (some c.val) = false → l.er ≠ 0 ∨ l.sw ≠ 0 → exec (.invalidationReceipt o ln) s =
          .next (sent ((u.squash (o.val / 16) (slotOf o.val)).leaveLine o.val ln true) ack))))) ∧
  (∀ (s : State) (o c : Fin 4096) (ln : Nat) (x : Bool) (rest : List Msg), Arrives s (message (.fwd x) o c ln) rest →
    let u := taken s rest
    let data := [message (.data 0 false) c c ln]
    (s.line o.val ln = none → exec (.forwardReceipt o ln) s = .next (sent u data)) ∧
    (∀ l, s.line o.val ln = some l → l.soft = false → l.st = .n → exec (.forwardReceipt o ln) s = .next (sent
      (if x then u.eraseLine o.val ln else u.putLine o.val ln
        { l with coh := .sh, dirty := false, sw := 0, er := 0, sdirty := 0, full := 0, bad := 0, present := 0, rel := none })
      data))) ∧
  (∀ (s : State) (c : Fin 4096) (ln : Nat) (p : Pend) (rest : List Msg),
    s.pends.find? (fun p => p.core == c.val && p.line == ln) = some p →
    let others := s.pends.filter (fun p => !(p.core == c.val && p.line == ln))
    let step (i : Instr) (q : Pend) : Prop :=
      (¬ (q.got = true ∧ q.need = some q.have_) → exec i s = .next { taken s rest with pends := others ++ [q] }) ∧
      (q.got = true → q.need = some q.have_ → (s.dir ln).queue = [] → Completes i s (fun t => t.mem = s.mem ∧
        t.pends = others ∧ t.msgs = rest ∧ (t.dir ln) = { s.dir ln with busy := none } ∧
        ∃ l, t.line c.val ln = some l ∧
          l.coh = (if p.own = true ∨ ((s.line c.val ln).getD {}).coh = .own then .own else .sh)))
    (∀ o, Arrives s (message .ack o c ln) rest → step (.invalidationAck c ln) { p with have_ := p.have_ + 1 }) ∧
    (∀ n g, Arrives s (message (.data n g) c c ln) rest → step (.dataReceipt c ln) { p with got := true, need := some n })) ∧
  (∀ (s : State) (c : Fin 4096) (ln : Nat), (∀ m ∈ s.msgs, m.line ≠ ln) →
    Stutters (.invalidationReceipt c ln) s ∧ Stutters (.forwardReceipt c ln) s ∧ Stutters (.invalidationAck c ln) s ∧
      Stutters (.dataReceipt c ln) s ∧ Stutters (.drainRequest c ln) s ∧ Stutters (.drainAck c ln) s) ∧
  (∀ (s : State) (ln : Nat), Table.get? s.splits (realLine ln) = none → (∀ m ∈ s.msgs, m.line ≠ ln) →
    (∀ c l, s.line c ln = some l → l.soft = true ∨ l.st = .n) →
    Completes (.directoryEviction ln) s (fun t => (t.dir ln).st = .u ∧
      (∀ c, t.line c ln = (s.line c ln).filter (·.soft)) ∧
      Table.get? t.lineHomes ln = none ∧
      ((s.dir ln).contributors = .u → t.mem = s.mem) ∧
      ((s.dir ln).contributors ≠ .u → (t.dir ln).contributors = .u ∧ (t.dir ln).held = []))) ∧
  (∀ (s : State) (c : Fin 4096) (ln : Nat) (l : Line), s.line c.val ln = some l →
    (l.soft = false ∨ l.sdirty = 0 → Stutters (.softWriteBack c ln) s) ∧
    (l.soft = true → l.sdirty ≠ 0 → l.st = .n → Completes (.softWriteBack c ln) s (fun t =>
      t.line c.val ln = some { l with sdirty := 0, full := 0, dirty := false })) ∧
    (l.soft = true → l.st = .n → l.key ≠ 4096 → ln < 2 ^ 73 → 0 < l.sdirty.toNat → l.sdirty.toNat < 2 ^ 64 →
      ∀ inv, (s.filt (2 * ln)).bi = some inv → Completes (.softWriteBack c ln) s (fun t => t.mem = s.mem ∧
        ∃ b : Back, t.backs = s.backs ++ [b] ∧ b.ln = ln ∧ b.half = 0 ∧ b.key = l.key ∧ b.mask = l.sdirty ∧ b.data = l.data)) ∧
    (l.soft = true → l.sdirty ≠ 0 → l.st = .n → l.key ≠ 4096 → ln < 2 ^ 73 → (s.filt (2 * ln)).bi = none →
      (s.filt (2 * ln)).st = .n → (s.filt (2 * ln + 1)).bi = none → (s.filt (2 * ln + 1)).st = .n → s.backs = [] →
      Memory.wf s.mem = true → Completes (.softWriteBack c ln) s (fun t =>
      (∀ i < 128, l.sdirty.getLsbD i = true → Memory.read t.mem (128 * ln + i) = l.data.extractLsb' (8 * i) 8) ∧
      (Table.get? s.lineKeys ln = some (s.matK l.key) → ∀ a,
        (a < 128 * ln ∨ 128 * ln + 128 ≤ a ∨ l.sdirty.getLsbD (a - 128 * ln) = false) →
          Memory.read t.mem a = Memory.read s.mem a)))) ∧
  (∀ (s : State) (o c : Fin 4096) (ln : Nat) (rest : List Msg), Arrives s (message .drain o c ln) rest →
    exec (.drainRequest o ln) s = .next (sent ((taken s rest).softBackAll o.val) [message .drainAck o c ln])) ∧
  (∀ (s : State) (o c : Fin 4096) (ln : Nat) (rest : List Msg), Arrives s (message .drainAck o c ln) rest →
    let u := (taken s rest).putDir ln { s.dir ln with records := (s.dir ln).records.erase o.val }
    ((∃ m ∈ rest, m.line = ln ∧ (m.kind = .drain ∨ m.kind = .drainAck)) → exec (.drainAck o ln) s = .next u) ∧
    ((∀ m ∈ rest, m.line ≠ ln) → (s.dir ln).busy = some (c.val, .getS) → (s.dir ln).st = .u →
      exec (.drainAck o ln) s = .next (served u c ln .getS (.p [c.val]) [message (.data 0 false) c c ln]))) ∧
  (∀ (s : State) (c : Fin 4096) (ln : Nat),
    (Table.get? (s.core c.val).partials ln = none → Stutters (.partialEviction c ln) s) ∧
    (∀ e, Table.get? (s.core c.val).partials ln = some e → exec (.partialEviction c ln) s = .next
      ((s.setCore c.val { s.core c.val with partials := Table.erase (s.core c.val).partials ln }).putDir ln
        { s.dir ln with held := Table.put (s.dir ln).held c.val e.2 }))) ∧
  (∀ (s : State) (q : Fin 256),
    let g := s.ring q.val
    (g.misses = [] → Stutters (.scopeMissEvent q) s) ∧
    (∀ m ms, g.misses = m :: ms →
      (g.key ≠ m.key → exec (.scopeMissEvent q) s = .next (s.setRing q.val { g with misses := ms })) ∧
      (g.key = m.key → g.thread ≠ none → Completes (.scopeMissEvent q) s (fun t => t.mem = s.mem ∧ t.cores = s.cores ∧
        let w := (t.ring q.val).smev
        (g.smev.getLsbD 63 = false → FirstMiss w g.smev m ∧
          t.ring q.val = { g with misses := ms, smev := w, smevAt := w } ∧
          t.turns = s.turns ++ if g.smev.getLsbD 55 then [Turn.event (.interruptDelivery q .scopeMiss)] else []) ∧
        (g.smev.getLsbD 63 = true → LaterMiss w g.smev ∧ t.ring q.val = { g with misses := ms, smev := w } ∧
          t.turns = s.turns))) ∧
      (∀ p, g.key = m.key → g.thread = none → g.parked = some p → Completes (.scopeMissEvent q) s (fun t =>
        t.turns = s.turns ∧ ∃ p', (t.ring q.val).parked = some p' ∧
          p' = { p with smev := p'.smev, smevAt := p'.smevAt, smevIntr := p'.smevIntr } ∧
          p'.smevIntr = (p.smevIntr || (!p.smev.getLsbD 63 && p.smev.getLsbD 55)) ∧
          (p.smev.getLsbD 63 = false → FirstMiss p'.smev p.smev m) ∧
          (p.smev.getLsbD 63 = true → LaterMiss p'.smev p.smev)))))

/-- R56, R64, R194, R196, R216, R244, R249, R251, R252, R259, R432, R437: copies, waits and errors. A plain copy between pieces
of scratchpad moves its bytes; one that may not write them, that a target has denied, or whose hart meets a parity error leaves
a sticky fault; each completion counts. A core goes on once what it waits for has come; an error squashes a
chunk, rolls an open region back to its checkpoint (R259: its attempts are counted and logged with code 0x0201, and an exhausted one
escalates with code 0x0202), or ends the thread, with code 0x0203.
Choices of the model it rests on are in the assumption log, entries 9, 28, 38, 45, 53, 63, 64, 66, 77, 78, 104, 125. -/
def Obligations.CopiesWaitsAndErrorsAreSeenTo : Prop :=
  (∀ (s : State) (c : Fin 4096) (ch : Fin 4) (parity : Bool),
    (s.copies = [] → Stutters (.copyKick c ch parity) s ∧ Stutters (.copyCompletion c ch) s) ∧
    (¬ HartsReady s → Stutters (.copyKick c ch parity) s) ∧
    (∀ k rest, s.copies = k :: rest → k.core = c.val → k.ch = ch.val → k.performed = true →
      Stutters (.copyKick c ch parity) s)) ∧
  (∀ (s : State) (c : Fin 4096) (ch : Fin 4) (k : Copy) (rest : List Copy),
    HartsReady s → FirstCopy s c ch k rest →
    (k.fold = 0 → k.cnt = 0 → k.sand = false → k.len = 0 →
      Completes (.copyKick c ch false) s (fun t => t.mem = s.mem ∧ PerformedCopy s t c ch k rest)) ∧
    (k.fold = 0 → k.cnt = 0 → k.sand = false → k.len ∈ [1, 2, 4, 8, 16] →
      OnPadOf c k.dst.toNat k.len → OnPadOf c k.src.toNat k.len → (s.core c.val).cpmask.getLsbD (c.val / 128) = true →
      (s.ring (c.val / 16)).chunks = [] →
      Completes (.copyKick c ch false) s (fun t => PerformedCopy s t c ch k rest ∧
        t.mem = Memory.writeN s.mem k.dst.toNat k.len (Memory.readN s.mem k.src.toNat k.len))) ∧
    ((∃ th, Alone s c th) → (s.ring (c.val / 16)).parked = none →
      Completes (.copyKick c ch true) s (fun t => CopyStopped s t c k rest (2 + 16 * 2 ^ ch.val)) ∧
      (k.dst.toNat / 2 ^ 56 = 0xFE → k.dst.toNat / 2 ^ 44 % 4096 = 0 → 0 < k.len →
        (s.core (k.dst.toNat / 2 ^ 32 % 4096)).cpmask.getLsbD (c.val / 128) = false →
        (Table.get s.frq (c.val / 128) {}).en = false →
        Completes (.copyKick c ch false) s (fun t => CopyStopped s t c k rest (3 + 16 * 2 ^ ch.val))))) ∧
  (∀ (s : State) (c : Fin 4096) (ch : Fin 4) (k : Copy) (rest : List Copy) (d : Nat × Nat),
    HartsReady s → FirstCopy s c ch { k with deny := none } rest → k.deny = some d → (∃ th, Alone s c th) →
      (s.ring (c.val / 16)).parked = none → (Table.get s.frq (c.val / 128) {}).en = false →
      Completes (.copyKick c ch false) { s with copies := k :: rest } (fun t =>
        CopyStopped s t c k rest (3 + 16 * 2 ^ ch.val))) ∧
  (∀ (s : State) (c : Fin 4096) (ch : Fin 4),
    (∀ k rest, s.copies = k :: rest → k.core = c.val → k.ch = ch.val → k.performed = true →
      Completes (.copyCompletion c ch) s (fun t => t.mem = s.mem ∧ t.copies = rest ∧
        t.core c.val = { s.core c.val with
          completed := (s.core c.val).completed.set ch.val ((s.core c.val).completed.get ch + 1) ch.isLt } ∧
        ((∃ o, (s.core c.val).wait = .drain o) → Turn.event (.drainComplete c) ∈ t.turns)))) ∧
  (∀ (s : State) (c : Fin 4096), ((s.core c.val).stopping ≠ none → Stutters (.drainComplete c) s) ∧
    ((s.core c.val).stopping = none →
      (∀ o, (s.core c.val).wait = .drain o →
        let ch : Fin 4 := Fin.ofNat 4 o.a.val
        let k := s.core c.val
        (∀ th, k.issued.get ch = k.completed.get ch → Alone s c th → (s.ring (c.val / 16)).forked = none →
          Completes (.drainComplete c) s (fun t => (t.core c.val).wait = .none ∧ (t.core c.val).pc = k.pc + 8 ∧
            (t.core c.val).tstk = k.tstk ∧ (t.core c.val).handler = k.handler ∧ t.cur = s.cur ∧
            (k.l1 = [] → t.mem = s.mem ∧ t.turns = s.turns ++ [Turn.core c.val] ∧
              t.core c.val = { k with wait := .none, pc := k.pc + 8 }) ∧
            (t.ring (c.val / 16)).thread = some { th with pos := th.pos + 1 })) ∧
        (k.issued.get ch ≠ k.completed.get ch → Stutters (.drainComplete c) s)) ∧
      (∀ o, (s.core c.val).wait = .exit o →
        let u := goesOn s c
        let t := ({ u with turns := s.turns, cur := c.val } : State).endRing (c.val / 16)
        ((∀ x ∈ s.copies, x.core / 16 ≠ c.val / 16) →
          exec (.drainComplete c) s = .next { t.endStages.syncNote ({ u with cur := c.val } : State).key with cur := s.cur }) ∧
        ((∃ x ∈ s.copies, x.core / 16 = c.val / 16 ∧ x.key = s.keyOf c.val) → Stutters (.drainComplete c) s)))) ∧
  (∀ (s : State) (c : Fin 4096),
    ((s.core c.val).wait = .none → Stutters (.drainComplete c) s ∧ Stutters (.mwaitWake c) s ∧
      Stutters (.qpushEvent c) s ∧ Stutters (.qpopEvent c) s) ∧
    (∀ o, (s.core c.val).wait = .mwait o →
      let b := s.buf c.val (Fin.ofNat 4 o.a.val)
      (b.tail = b.head → Stutters (.mwaitWake c) s) ∧
      (b.tail ≠ b.head → exec (.mwaitWake c) s = .next (goesOn s c))) ∧
    (∀ o, (s.core c.val).wait = .qpush o → ∀ q, s.waitedQueue c.val o.a = some q →
      (q.occ = q.cap → Stutters (.qpushEvent c) s) ∧ (q.occ ≠ q.cap → exec (.qpushEvent c) s = .next (goesOn s c))) ∧
    (∀ o n y, (s.core c.val).wait = .qpop o n y → ∀ q, s.waitedQueue c.val o.a = some q →
      (q.occ = 0 → q.closed = false → Stutters (.qpopEvent c) s) ∧
      (q.occ ≠ 0 ∨ q.closed = true → exec (.qpopEvent c) s = .next (goesOn s c)))) ∧
  (∀ (s : State) (c : Fin 4096) (q : Fin 8),
    ((∀ p ∈ s.prefs, ¬ (p.core = c.val ∧ p.q = q)) → Stutters (.prefComplete c q) s) ∧
    (∀ p : Pref, s.prefs = [p] → p.core = c.val → p.q = q → p.start.toNat / 2 ^ 56 = 0xFE → p.len.toNat ≤ 128 →
      1 ≤ p.len.toNat → p.start.toNat % 128 = 0 →
      exec (.prefComplete c q) s = .next { s.setCore c.val { s.core c.val with
        q := (s.core c.val).q.set q.val 0x4000000000000000 q.isLt } with prefs := [] })) ∧
  (∀ (s : State) (j : Fin 256) (r : Fin 4096) (sc : Fin 16) (u : Nat),
    (s.participants j.val r.val sc.val u = [] → Stutters (.ssyncComplete j r sc u) s) ∧
    (∀ q th, s.participants j.val r.val sc.val u = [q] → s.parkedOf j.val r.val = [] → (s.ring q).thread = some th →
      let key := epKey sc.val u
      let k := Table.get (s.recd j.val r.val).episodes key 0 + 1
      let c := coreAt q (s.ring q).head
      th.syncs.get (syncIx sc.val) = k → s.fab.pkts = [] → (s.ring q).chunks = [] → (s.ring q).forked = none → (s.core c).wait = .ssync sc.val k →
      (s.core c).l1 = [] → Completes (.ssyncComplete j r sc u) s (fun t => t.mem = s.mem ∧
        Table.get (t.recd j.val r.val).episodes key 0 = k ∧
        t.core c = { s.core c with wait := .none, pc := (s.core c).pc + 8 } ∧
        (t.ring q).thread = some { th with arrived := none, pos := th.pos + 1 }))) ∧
  (∀ (s : State) (f : LaneFail),
    let c := f.core % 4096
    let k := s.core c
    (k.lret.getLsbD f.lane.val = true ∨ k.withdrawn = true → Stutters (.laneResidueFailure f) s) ∧
    (∀ r : BitVec 64, (∀ i < 64, r.getLsbD i = (k.lret.getLsbD i || i == f.lane.val)) → k.lret.getLsbD f.lane.val = false →
      k.withdrawn = false → EnoughLanes r → f.reader = none → exec (.laneResidueFailure f) s = .next
        ((s.setCore c { k with lret := r }).log
          (entry (s.keyOf c) c 0x0210 0 1 0 [BitVec.ofNat 64 f.lane.val])))) ∧
  (∀ (s : State) (c : Fin 4096) (pc : Word),
    let k := s.core c.val
    (k.withdrawn = true → Stutters (.scalarResidueFailure c pc) s) ∧
    (k.withdrawn = false → k.scalarFails = 0 → s.runsOn c.val = false →
      exec (.scalarResidueFailure c pc) s = .next (s.setCore c.val { k with scalarFails := 1 })) ∧
    (k.withdrawn = false → 1 ≤ k.scalarFails → (s.ring (c.val / 16)).thread = none →
      Completes (.scalarResidueFailure c pc) s (fun t => t.mem = s.mem ∧
        t.core c.val = { k with scalarFails := k.scalarFails + 1, withdrawn := true } ∧
        (t.ring (c.val / 16)).withdrawn = true)) ∧
    (∀ again, k.stopping ≠ none →
      exec (.detectedError c ⟨pc, again⟩) s = .next (s.saveFault c.val pc { cause := 11, acc := 1, va := k.ctxbase.toNat })) ∧
    (∀ again, k.stopping = none →
      (s.runsOn c.val = false → Stutters (.detectedError c ⟨pc, again⟩) s) ∧
      (∀ th, Alone s c th → k.handler = false → k.regions = [] →
        exec (.detectedError c ⟨pc, again⟩) s = .next
          ((s.log (entry th.key c.val 0x0203 0 3 0 [pc])).endLaunch th.job th.record 2)) ∧
      (∀ th, Alone s c th → k.handler = false →
        exec (.detectedError c ⟨pc, again⟩) s = .next (s.rollback c.val pc again k.regions.length)) ∧
      (∀ g : Chunk, (s.ring (c.val / 16)).chunkAt (slotOf c.val) = some g → g.repairable = true → g.restarts < 3 →
        k.handler = false → Completes (.detectedError c ⟨pc, again⟩) s (fun t => t.mem = s.mem ∧
          ∃ g', (t.ring (c.val / 16)).chunkAt (slotOf c.val) = some g' ∧ g'.restart = true ∧ g'.kept = g.kept ∧
            g'.restarts = g.restarts + 1)))) ∧
  (∀ (s : State) (c e : Nat) (pc : Word) (again : Bool), s.rollback c pc again 0 = s.abortCode c 0x0203 [pc] ∧
    ∀ g, (s.core c).regions.reverse[e]? = some g →
      (g.unrec = true ∨ g.retry = g.limit → s.rollback c pc again (e + 1) =
        (s.log (entry (s.keyOf c) c 0x0202 0 2 0 [BitVec.ofNat 64 (e + 1), BitVec.ofNat 64 g.retry, pc])).rollback c pc again e) ∧
      (g.unrec = false → g.retry ≠ g.limit →
        let d := dropRegions s c (e + 1)
        let newest := d.logStarts c g.start (s.core c).logTail ((s.core c).logTail + 1)
        (∀ u, d.undo c (e + 1) newest = (false, u) → s.rollback c pc false (e + 1) = u.abortCode c 0x0204 [pc]) ∧
        (∀ u, d.undo c (e + 1) newest = (true, u) → (u.core c).handler = false →
          s.rollback c pc false (e + 1) = (u.setCore c (rolledBack (u.core c) (u.keptRegs c g.snap) (e + 1) g)).log
            (entry (u.keyOf c) c 0x0201 0 2 0 [BitVec.ofNat 64 (e + 1), BitVec.ofNat 64 (g.retry + 1), pc])) ∧
        (∃ n, ∀ ok u, ({ d with free := d.free + 1 } : State).undo c (e + 1) (newest.take n) = (ok, u) →
          s.rollback c pc true (e + 1) = u.abortCode c 0x0204 [pc]))) ∧
  (∀ (s : State) (c code : Nat) (detail : List Word) (th : Thread), (s.ring (c / 16)).thread = some th →
    s.abortCode c code detail = (s.log (entry th.key c code 0 3 0 detail)).endLaunch th.job th.record 2) ∧
  (∀ (s : State) (pa : Nat) (pc : Word),
    exec (.memoryUncorrectableError ⟨pa, pc⟩) s = .next
      (({ s with poison := Table.put s.poison (pa / 128) 0 }).log (entry 0 0xFFF 0x0220 3 2 pa [pc])) ∧
    exec (.correctableError ⟨pa, pc⟩) s = .next (s.log (entry 0 0xFFF 0x0221 3 1 pa [pc]))) ∧
  (∀ (s : State) (c : Fin 4096) (ln : Nat),
    let k := s.core c.val
    ((∀ e ∈ k.icache, e.1 % 2 ^ 45 ≠ ln) → Stutters (.icacheParityError c ln) s) ∧
    ((∃ e ∈ k.icache, e.1 % 2 ^ 45 = ln) → exec (.icacheParityError c ln) s = .next
      ((s.setCore c.val { k with icache := k.icache.filter (fun e => e.1 % 2 ^ 45 != ln) }).log
        (entry (s.keyOf c.val) c.val 0x0222 0 1 (128 * ln) [k.pc])))) ∧
  (∀ s : State, Becomes .padWord s (passed s.me 4))

/-- R292, R295 to R303, R306: encoding and decoding agree. At every block offset at which it fits, whatever stands behind it,
the words of a well-formed instruction decode to that instruction and to its own length; the pad word is one at offset 28;
and what the decoder answers is well-formed. -/
def Obligations.EncodedInstructionsDecodeToThemselves : Prop :=
  (∀ (i : Instr) (ws : List Nat) (rest : List Byte) (off : Nat), i.wf = true → i ≠ .padWord → encode i = some ws →
    off + 4 * ws.length ≤ 32 → decode off (bytesOfWords ws ++ rest) = .ok i (4 * ws.length)) ∧
  (∀ rest : List Byte, decode 28 (bytesOfWords [0xC0] ++ rest) = .ok .padWord 4) ∧
  (∀ (off : Nat) (bs : List Byte) (i : Instr) (n : Nat), decode off bs = .ok i n → i.wf = true)

/-- The worked fragment after R361, the example of R414, and R292 to R294, R303, R306: words written out by the manual decode
to the instructions it writes beside them, and illegal words answer their sub-causes. -/
def Obligations.WordsOfTheManualDecode : Prop :=
  decode 0 (bytesOfWords [0x48002040, 0xFFFFFFFF]) = .ok (.li { d := 8, imm := 0xFFFFFFFF#32, gd := always }) 8 ∧
  decode 8 (bytesOfWords [0x02192400, 0x000C1000]) = .ok (.div { d := 9, a := 25, b := 8, ty := .i32, gd := always }) 8 ∧
  decode 0 (bytesOfWords [0x06983110, 0x25100000]) =
    .ok (.amoadd { d := 12, a := 24, b := 26, ty := .i64, acq := true, rel := false, sc := 5, gd := always }) 8 ∧
  decode 8 (bytesOfWords [0x02580105, 0x45100000, 0x00000008]) =
    .ok (.st { a := 24, b := 9, imm := 8, ty := .i64, rel := true, sc := 5, gd := always }) 12 ∧
  decode 20 (bytesOfWords [0x003F00C0, 0x00000C00]) = .ok (.ret { a := 63, gd := always }) 8 ∧
  decode 0 (bytesOfWords [0x00070301, 0, 0x004F000A]) = .ok (.fork { a := 7, imm := 0x004F000A#32 }) 12 ∧
  decode 0 (bytesOfWords [0, 0]) = .illegal 5 ∧ decode 0 (bytesOfWords [0x3FC, 0]) = .illegal 6 ∧
  decode 0 (bytesOfWords [3, 0]) = .illegal 3 ∧ decode 28 (bytesOfWords [0x48002040]) = .illegal 4 ∧
  decode 0 (bytesOfWords [4, 0]) = .illegal 1 ∧ decode 0 (bytesOfWords [0, 0x000C7C00]) = .illegal 2

/-- R222, R293, R306: a step runs the decoded instruction. A core whose turn is due, or that issues because no turn is due,
fetches the bytes from its pc to the end of the 32-byte block; when they decode to an instruction, the step is `exec` of it,
after noting the live-ins it exposes, and followed by noting what it wrote where its guard held; an illegal word traps 0x01 with
its sub-cause; an instruction that names a vector register which a `cpyv` has still to transfer waits (R431); a core whose turn finds
it unable to issue lets it pass; a due event is `exec` of that event, and while the clocks are stopped a due turn passes, but for the
events that need none. A fetch that misses takes the committed bytes of the line, after what a core holds of it has been written back.
Choices of the model it rests on are in the assumption log, entries 4, 5, 6, 65, 95, 104. -/
def Obligations.AStepRunsTheDecodedInstruction : Prop :=
  (∀ (s v : State) (c : Nat) (bs : List Byte),
    let runs (u : State) : Prop := (inTurn u c).fetch = .bytes bs v →
      (∀ i n t, decode (v.pc.toNat % 32) bs = .ok i n → v.interlocks c i = false → exec i (v.expose c i) = .next t →
        step s = .next (t.retire c i (v.guardHolds c i))) ∧
      (∀ i n, decode (v.pc.toNat % 32) bs = .ok i n → v.interlocks c i = true → step s = .next (v.waitFor .cpyv)) ∧
      (∀ sub, decode (v.pc.toNat % 32) bs = .illegal sub → step s = .next (illegal sub v))
    s.dev.clocksOn = true →
      (∀ ts, s.turns = Turn.core c :: ts → s.canIssue c = true → runs { s.tick with turns := ts }) ∧
      (∀ ts, s.turns = Turn.core c :: ts → s.canIssue c = false → step s = .next { s.tick with turns := ts, cur := c }) ∧
      (s.turns = [] → s.pick = some c → runs { s.tick with free := s.free + 1 })) ∧
  (∀ (s : State) (i : Instr) (ts : List Turn), s.turns = Turn.event i :: ts → s.dev.clocksOn = true →
    step s = exec i { s.tick with turns := ts }) ∧
  (∀ (s : State) (c : Nat) (i : Instr) (ts : List Turn), s.dev.clocksOn = false →
    (s.turns = Turn.core c :: ts ∨ s.turns = Turn.deliver c :: ts ∨ (s.turns = Turn.event i :: ts ∧ alwaysOn s.dev i = false) →
      step s = .next { s.tick with turns := ts }) ∧
    (s.turns = Turn.event i :: ts → alwaysOn s.dev i = true → step s = exec i { s.tick with turns := ts })) ∧
  (∀ (s v w : State) (a : At), s.place s.who 4 s.pc.toNat 4 = (v, .ok (.mem a)) →
    Table.get? (v.core s.cur).icache (a.ln + 2 ^ 45 * a.key) = none → v.barred v.who a.ln = none → v.available a.tier (128 * a.ln) 128 false = (none, w) →
    w.poison = [] → ∃ bs t, s.fetch = .bytes bs t ∧
      let u := w.codeMiss s.cur a.ln
      t.mem = u.mem ∧ ((∀ e ∈ w.cores, Table.get? e.2.l1 a.ln = none) → t.mem = w.mem) ∧
      bs.length = min (128 - a.pa % 128) (32 - s.pc.toNat % 32) ∧
      ∀ i < bs.length, bs.getD i 0 = u.physByte (u.matK a.key) (a.pa + i))

/-- Nothing the manual describes stops the model: every instruction, in every state, answers a next state, and a step stops
only while the clocks are stopped and nothing is due (R25, R32).
Choices of the model it rests on are in the assumption log, entries 6, 101. -/
def Obligations.NoInstructionStops : Prop :=
  (∀ (i : Instr) (s : State), ∃ t, exec i s = .next t) ∧
  (∀ s : State, (∃ t, step s = .next t) ∨ (step s = .fault .clocksStopped ∧ s.turns = [] ∧ s.dev.clocksOn = false))

/-- R27 and the reset columns of R22, R25, R31, R84 to R86, R95, R200, R224: what a cold reset leaves. Memory is clear and in
canonical form, no key slot is valid, no job is open, no ring has a thread, and the registers hold the values the manual
gives.
Choices of the model it rests on are in the assumption log, entries 1, 2, 3, 8. -/
def Obligations.ResetLeavesWhatTheManualStates : Prop :=
  let s := State.reset
  let d := s.dev
  s.Inv ∧ (∀ a, Memory.read s.mem a = 0) ∧ (∀ k, s.keyMat k = none) ∧ (∀ j, (s.job j).st = .closed) ∧
  (∀ r, (s.ring r).thread = none ∧ (s.ring r).parked = none ∧ (s.ring r).chunks = [] ∧ (s.ring r).smev = 0) ∧
  (∀ c, (s.core c).cpmask = 0xFFFFFFFF#32 ∧ (s.core c).rb = Vector.replicate 4 {} ∧ (s.core c).rbovf = 0 ∧
    (s.core c).l1 = [] ∧ (s.core c).tlb = [] ∧ (s.core c).lret = 0) ∧
  (∀ n, (d.domains.toList.getD n {}).cur = 4) ∧ d.power.thr = 0 ∧ d.trip = false ∧ d.almLock = false ∧ d.almEn = 0x1F#5 ∧
  d.almPol = 0 ∧ d.almCount = 0 ∧ d.bstep = 0 ∧ d.elogHead = 0 ∧ d.elogTail = 0 ∧ d.elogLost = 0 ∧ d.mbxBusy = false ∧
  d.mbxIn = Vector.replicate 32 0 ∧ (∀ h, (s.half h).st = .i) ∧ (∀ l, (s.filt l).st = .n) ∧ (∀ l, (s.dir l).st = .u) ∧
  s.fab.devid = 0 ∧ s.fab.pkts = [] ∧ (∀ k, s.memberN k 1 = false) ∧ s.tlbiGo = false ∧ s.poison = []

/-- R27, R62, R164: the memory keeps its canonical form. Whatever state a step starts from, if memory and scratchpads are one
list with rising addresses that lists no byte at its default, they are so afterwards.
Choices of the model it rests on are in the assumption log, entry 8. -/
def Obligations.EveryStepKeepsTheMemory : Prop := ∀ s t : State, s.Inv → step s = .next t → t.Inv
end

