-- ==== Sys2Proof/Laws/Memory.lean ====
section
/-! SUPPORT. Laws of sparse tables and of the byte memory: what a read answers after a write, and that every operation
keeps the canonical form `Memory.wf`. -/

namespace Sys2Proof.Machine

open Sys2Proof

/-! ### Tables -/

/-- The entry just put is the one found. -/
theorem Table.get?_put_same {α : Type} (t : Table α) (k : Nat) (v : α) : Table.get? (Table.put t k v) k = some v := by
  induction t with
  | nil => simp [Table.put, Table.get?]
  | cons e t ih =>
      obtain ⟨j, u⟩ := e
      by_cases h : k < j
      · simp [Table.put, Table.get?, h]
      · by_cases h' : j = k
        · simp [Table.put, Table.get?, h']
        · simp [Table.put, Table.get?, h, h', ih]

/-- Putting one key leaves every other entry. -/
theorem Table.get?_put_ne {α : Type} (t : Table α) (k l : Nat) (v : α) (h : l ≠ k) :
    Table.get? (Table.put t k v) l = Table.get? t l := by
  induction t with
  | nil => simp [Table.put, Table.get?, Ne.symm h]
  | cons e t ih =>
      obtain ⟨j, u⟩ := e
      by_cases h1 : k < j
      · simp [Table.put, Table.get?, h1, Ne.symm h]
      · by_cases h2 : j = k
        · subst h2; simp [Table.put, Table.get?, Ne.symm h]
        · by_cases h3 : j = l
          · subst h3; simp [Table.put, Table.get?, h1, h2]
          · simp [Table.put, Table.get?, h1, h2, h3, ih]

/-- The same for a read with a default. -/
@[simp] theorem Table.get_put_same {α : Type} (t : Table α) (k : Nat) (v dflt : α) :
    Table.get (Table.put t k v) k dflt = v := by
  simp [Table.get, Table.get?_put_same]

/-- The same for a read of another key with a default. -/
theorem Table.get_put_ne {α : Type} (t : Table α) (k l : Nat) (v dflt : α) (h : l ≠ k) :
    Table.get (Table.put t k v) l dflt = Table.get t l dflt := by
  simp [Table.get, Table.get?_put_ne t k l v h]

/-! ### The canonical form -/

/-- Every address of a memory is above a bound. -/
def Memory.above (n : Nat) (m : List Host.Cell) : Prop := ∀ c ∈ m, n < c.1

/-- The canonical form of a longer list: its first cell, and the rest above it. -/
theorem Memory.wf_cons (c : Host.Cell) (m : List Host.Cell) :
    Memory.wf (c :: m) = true ↔ c.2 ≠ 0 ∧ Memory.above c.1 m ∧ Memory.wf m = true := by
  induction m generalizing c with
  | nil => simp [Memory.wf, Memory.above]
  | cons d m ih =>
      simp only [Memory.wf, Bool.and_eq_true, bne_iff_ne, decide_eq_true_eq, Memory.above, List.mem_cons]
      constructor
      · rintro ⟨⟨h1, h2⟩, h3⟩
        refine ⟨h1, ?_, h3⟩
        rintro e (rfl | he)
        · exact h2
        · exact Nat.lt_trans h2 ((ih d).1 h3 |>.2.1 e he)
      · rintro ⟨h1, h2, h3⟩
        exact ⟨⟨h1, h2 d (Or.inl rfl)⟩, h3⟩

/-- A write keeps every address above a bound that it is above itself. -/
theorem Memory.above_write (n a : Nat) (v : Byte) (m : List Host.Cell) (hn : n < a) (h : Memory.above n m) :
    Memory.above n (Memory.write m a v) := by
  induction m with
  | nil =>
      intro c hc
      by_cases hv : v = 0#8
      · simp [Memory.write, hv] at hc
      · simp [Memory.write, hv] at hc; simp [hc, hn]
  | cons e m ih =>
      obtain ⟨b, u⟩ := e
      have hm : Memory.above n m := fun c hc => h c (List.mem_cons_of_mem _ hc)
      have hb : n < b := h (b, u) (List.mem_cons_self ..)
      intro c hc
      simp only [Memory.write] at hc
      split at hc
      · split at hc
        · exact h c hc
        · rcases List.mem_cons.1 hc with rfl | hc
          · exact hn
          · exact h c hc
      · split at hc
        · split at hc
          · exact hm c hc
          · rcases List.mem_cons.1 hc with rfl | hc
            · exact hn
            · exact hm c hc
        · rcases List.mem_cons.1 hc with rfl | hc
          · exact hb
          · exact ih hm c hc

/-- A write of one byte keeps the canonical form. -/
theorem Memory.wf_write (m : List Host.Cell) (a : Nat) (v : Byte) (h : Memory.wf m = true) :
    Memory.wf (Memory.write m a v) = true := by
  induction m with
  | nil => by_cases hv : v = 0#8 <;> simp [Memory.write, Memory.wf, hv]
  | cons e m ih =>
      obtain ⟨b, u⟩ := e
      obtain ⟨h1, h2, h3⟩ := (Memory.wf_cons _ _).1 h
      simp only [Memory.write]
      split
      · rename_i hab
        split
        · exact h
        · rename_i hv
          refine (Memory.wf_cons _ _).2 ⟨hv, ?_, h⟩
          intro c hc
          rcases List.mem_cons.1 hc with rfl | hc
          · exact hab
          · exact Nat.lt_trans hab (h2 c hc)
      · split
        · rename_i hba
          split
          · exact h3
          · rename_i hv
            exact (Memory.wf_cons _ _).2 ⟨hv, hba ▸ h2, h3⟩
        · rename_i hab hba
          exact (Memory.wf_cons _ _).2 ⟨h1, Memory.above_write b a v m (by omega) h2, ih h3⟩

/-- A write of several bytes keeps the canonical form. -/
theorem Memory.wf_writeN (m : List Host.Cell) (a n v : Nat) (h : Memory.wf m = true) :
    Memory.wf (Memory.writeN m a n v) = true := by
  induction n generalizing m a v with
  | zero => exact h
  | succ n ih => exact ih _ _ _ (Memory.wf_write m a _ h)

/-- Leaving cells out keeps the canonical form: what passes to zeros is removed. -/
theorem Memory.wf_filter (m : List Host.Cell) (p : Host.Cell → Bool) (h : Memory.wf m = true) :
    Memory.wf (m.filter p) = true := by
  induction m with
  | nil => rfl
  | cons e m ih =>
      obtain ⟨h1, h2, h3⟩ := (Memory.wf_cons _ _).1 h
      by_cases hp : p e = true
      · rw [List.filter_cons_of_pos hp]
        exact (Memory.wf_cons _ _).2 ⟨h1, fun c hc => h2 c (List.mem_filter.1 hc).1, ih h3⟩
      · rw [List.filter_cons_of_neg hp]
        exact ih h3

/-- Writing a list of cells, one by one, keeps the canonical form. -/
theorem Memory.wf_foldWrite (cs : List Host.Cell) (m : List Host.Cell) (h : Memory.wf m = true) :
    Memory.wf (cs.foldl (fun m c => Memory.write m c.1 c.2) m) = true := by
  induction cs generalizing m with
  | nil => exact h
  | cons c cs ih => exact ih _ (Memory.wf_write m c.1 c.2 h)

/-! ### Reads after writes -/

/-- An address below every listed one reads as zero. -/
theorem Memory.read_above (m : List Host.Cell) (a : Nat) (h : Memory.above a m) : Memory.read m a = 0 := by
  cases m with
  | nil => rfl
  | cons e m =>
      obtain ⟨b, u⟩ := e
      have hb : a < b := h (b, u) (List.mem_cons_self ..)
      simp [Memory.read, Nat.ne_of_gt hb, hb]

/-- The byte just written is the one read. -/
theorem Memory.read_write_same (m : List Host.Cell) (a : Nat) (v : Byte) (h : Memory.wf m = true) :
    Memory.read (Memory.write m a v) a = v := by
  induction m with
  | nil => by_cases hv : v = 0#8 <;> simp [Memory.write, Memory.read, hv]
  | cons e m ih =>
      obtain ⟨b, u⟩ := e
      obtain ⟨h1, h2, h3⟩ := (Memory.wf_cons _ _).1 h
      simp only [Memory.write]
      split
      · rename_i hab
        split
        · rename_i hv
          subst hv
          simp [Memory.read, Nat.ne_of_gt hab, hab]
        · simp [Memory.read]
      · split
        · rename_i hba
          subst hba
          split
          · rename_i hv
            subst hv
            exact Memory.read_above m b h2
          · simp [Memory.read]
        · rename_i hab hba
          simp [Memory.read, hba, hab, ih h3]

/-- A write leaves every other byte. -/
theorem Memory.read_write_ne (m : List Host.Cell) (a b : Nat) (v : Byte) (h : Memory.wf m = true) (hab : b ≠ a) :
    Memory.read (Memory.write m a v) b = Memory.read m b := by
  induction m with
  | nil =>
      by_cases hv : v = 0#8
      · simp [Memory.write, hv]
      · simp [Memory.write, Memory.read, hv, Ne.symm hab]
  | cons e m ih =>
      obtain ⟨c, u⟩ := e
      obtain ⟨h1, h2, h3⟩ := (Memory.wf_cons _ _).1 h
      simp only [Memory.write]
      split
      · rename_i hac
        split
        · rfl
        · by_cases hba : b < a
          · have h4 : ¬ c = b := by omega
            have h5 : b < c := by omega
            simp [Memory.read, Ne.symm hab, hba, h4, h5]
          · simp [Memory.read, Ne.symm hab, hba]
      · split
        · rename_i hac hca
          subst hca
          have hr : Memory.read m b = Memory.read ((c, u) :: m) b := by
            by_cases hbc : b < c
            · rw [Memory.read_above m b (fun d hd => Nat.lt_trans hbc (h2 d hd))]
              simp [Memory.read, Ne.symm hab, hbc]
            · simp [Memory.read, Ne.symm hab, hbc]
          split
          · exact hr
          · rw [← hr]
            by_cases hbc : b < c
            · simp [Memory.read, Ne.symm hab, hbc, Memory.read_above m b (fun d hd => Nat.lt_trans hbc (h2 d hd))]
            · simp [Memory.read, Ne.symm hab, hbc]
        · rename_i hac hca
          by_cases hcb : c = b
          · simp [Memory.read, hcb]
          · by_cases hbc : b < c
            · simp [Memory.read, hcb, hbc]
            · simp [Memory.read, hcb, hbc, ih h3]

/-- A write of several bytes leaves every byte outside them. -/
theorem Memory.read_writeN_outside (m : List Host.Cell) (a n v b : Nat) (h : Memory.wf m = true)
    (hb : b < a ∨ a + n ≤ b) : Memory.read (Memory.writeN m a n v) b = Memory.read m b := by
  induction n generalizing m a v with
  | zero => rfl
  | succ n ih =>
      rw [Memory.writeN, ih _ _ _ (Memory.wf_write m a _ h) (by omega),
        Memory.read_write_ne m a b _ h (by omega)]

/-- What was written is read back, little-endian. -/
theorem Memory.readN_writeN_same (m : List Host.Cell) (a n v : Nat) (h : Memory.wf m = true) :
    Memory.readN (Memory.writeN m a n v) a n = v % 256 ^ n := by
  induction n generalizing m a v with
  | zero => simp [Memory.readN, Nat.mod_one]
  | succ n ih =>
      have h1 := Memory.wf_write m a (BitVec.ofNat 8 v) h
      rw [Memory.readN, Memory.writeN, ih _ _ _ h1,
        Memory.read_writeN_outside _ (a + 1) n _ a h1 (by omega), Memory.read_write_same m a _ h]
      have e : (BitVec.ofNat 8 v).toNat = v % 256 := by simp
      rw [e, Nat.pow_succ, Nat.mul_comm (256 ^ n) 256, Nat.mod_mul]

end Sys2Proof.Machine
end

