-- ==== Sys2Proof/Laws/State.lean ====
section
/-! SUPPORT. Laws of the state's named updates, one per field and update, and of the register accessors. -/

namespace Sys2Proof.Machine

open Sys2Proof

/-! ### `State.setCore` -/

@[simp] theorem State.setCore_turns (s : State) (c : Nat) (k : Core) : (s.setCore c k).turns = s.turns := rfl
@[simp] theorem State.setCore_cur (s : State) (c : Nat) (k : Core) : (s.setCore c k).cur = s.cur := rfl
@[simp] theorem State.setCore_free (s : State) (c : Nat) (k : Core) : (s.setCore c k).free = s.free := rfl
@[simp] theorem State.setCore_cycle (s : State) (c : Nat) (k : Core) : (s.setCore c k).cycle = s.cycle := rfl
@[simp] theorem State.setCore_cores (s : State) (c : Nat) (k : Core) : (s.setCore c k).cores = Table.put s.cores c k := rfl
@[simp] theorem State.setCore_rings (s : State) (c : Nat) (k : Core) : (s.setCore c k).rings = s.rings := rfl
@[simp] theorem State.setCore_mem (s : State) (c : Nat) (k : Core) : (s.setCore c k).mem = s.mem := rfl
@[simp] theorem State.setCore_lineKeys (s : State) (c : Nat) (k : Core) : (s.setCore c k).lineKeys = s.lineKeys := rfl
@[simp] theorem State.setCore_poison (s : State) (c : Nat) (k : Core) : (s.setCore c k).poison = s.poison := rfl
@[simp] theorem State.setCore_lineHomes (s : State) (c : Nat) (k : Core) : (s.setCore c k).lineHomes = s.lineHomes := rfl
@[simp] theorem State.setCore_splits (s : State) (c : Nat) (k : Core) : (s.setCore c k).splits = s.splits := rfl
@[simp] theorem State.setCore_backs (s : State) (c : Nat) (k : Core) : (s.setCore c k).backs = s.backs := rfl
@[simp] theorem State.setCore_dirs (s : State) (c : Nat) (k : Core) : (s.setCore c k).dirs = s.dirs := rfl
@[simp] theorem State.setCore_msgs (s : State) (c : Nat) (k : Core) : (s.setCore c k).msgs = s.msgs := rfl
@[simp] theorem State.setCore_pends (s : State) (c : Nat) (k : Core) : (s.setCore c k).pends = s.pends := rfl
@[simp] theorem State.setCore_halves (s : State) (c : Nat) (k : Core) : (s.setCore c k).halves = s.halves := rfl
@[simp] theorem State.setCore_filter (s : State) (c : Nat) (k : Core) : (s.setCore c k).filter = s.filter := rfl
@[simp] theorem State.setCore_tlb2 (s : State) (c : Nat) (k : Core) : (s.setCore c k).tlb2 = s.tlb2 := rfl
@[simp] theorem State.setCore_hmask (s : State) (c : Nat) (k : Core) : (s.setCore c k).hmask = s.hmask := rfl
@[simp] theorem State.setCore_frq (s : State) (c : Nat) (k : Core) : (s.setCore c k).frq = s.frq := rfl
@[simp] theorem State.setCore_tlbiVa (s : State) (c : Nat) (k : Core) : (s.setCore c k).tlbiVa = s.tlbiVa := rfl
@[simp] theorem State.setCore_tlbiGo (s : State) (c : Nat) (k : Core) : (s.setCore c k).tlbiGo = s.tlbiGo := rfl
@[simp] theorem State.setCore_tlbiOp (s : State) (c : Nat) (k : Core) : (s.setCore c k).tlbiOp = s.tlbiOp := rfl
@[simp] theorem State.setCore_tlbiKey (s : State) (c : Nat) (k : Core) : (s.setCore c k).tlbiKey = s.tlbiKey := rfl
@[simp] theorem State.setCore_tlbiGone (s : State) (c : Nat) (k : Core) : (s.setCore c k).tlbiGone = s.tlbiGone := rfl
@[simp] theorem State.setCore_copies (s : State) (c : Nat) (k : Core) : (s.setCore c k).copies = s.copies := rfl
@[simp] theorem State.setCore_prefs (s : State) (c : Nat) (k : Core) : (s.setCore c k).prefs = s.prefs := rfl
@[simp] theorem State.setCore_dev (s : State) (c : Nat) (k : Core) : (s.setCore c k).dev = s.dev := rfl
@[simp] theorem State.setCore_fab (s : State) (c : Nat) (k : Core) : (s.setCore c k).fab = s.fab := rfl
@[simp] theorem State.setCore_jobs (s : State) (c : Nat) (k : Core) : (s.setCore c k).jobs = s.jobs := rfl
@[simp] theorem State.setCore_order (s : State) (c : Nat) (k : Core) : (s.setCore c k).order = s.order := rfl
@[simp] theorem State.setCore_ovfBufs (s : State) (c : Nat) (k : Core) : (s.setCore c k).ovfBufs = s.ovfBufs := rfl
@[simp] theorem State.setCore_reports (s : State) (c : Nat) (k : Core) : (s.setCore c k).reports = s.reports := rfl
@[simp] theorem State.setCore_fwRoot (s : State) (c : Nat) (k : Core) : (s.setCore c k).fwRoot = s.fwRoot := rfl
@[simp] theorem State.setCore_outs (s : State) (c : Nat) (k : Core) : (s.setCore c k).outs = s.outs := rfl

/-! ### `State.setRing` -/

@[simp] theorem State.setRing_turns (s : State) (r : Nat) (k : Ring) : (s.setRing r k).turns = s.turns := rfl
@[simp] theorem State.setRing_cur (s : State) (r : Nat) (k : Ring) : (s.setRing r k).cur = s.cur := rfl
@[simp] theorem State.setRing_free (s : State) (r : Nat) (k : Ring) : (s.setRing r k).free = s.free := rfl
@[simp] theorem State.setRing_cycle (s : State) (r : Nat) (k : Ring) : (s.setRing r k).cycle = s.cycle := rfl
@[simp] theorem State.setRing_cores (s : State) (r : Nat) (k : Ring) : (s.setRing r k).cores = s.cores := rfl
@[simp] theorem State.setRing_rings (s : State) (r : Nat) (k : Ring) : (s.setRing r k).rings = Table.put s.rings r k := rfl
@[simp] theorem State.setRing_mem (s : State) (r : Nat) (k : Ring) : (s.setRing r k).mem = s.mem := rfl
@[simp] theorem State.setRing_lineKeys (s : State) (r : Nat) (k : Ring) : (s.setRing r k).lineKeys = s.lineKeys := rfl
@[simp] theorem State.setRing_poison (s : State) (r : Nat) (k : Ring) : (s.setRing r k).poison = s.poison := rfl
@[simp] theorem State.setRing_lineHomes (s : State) (r : Nat) (k : Ring) : (s.setRing r k).lineHomes = s.lineHomes := rfl
@[simp] theorem State.setRing_splits (s : State) (r : Nat) (k : Ring) : (s.setRing r k).splits = s.splits := rfl
@[simp] theorem State.setRing_backs (s : State) (r : Nat) (k : Ring) : (s.setRing r k).backs = s.backs := rfl
@[simp] theorem State.setRing_dirs (s : State) (r : Nat) (k : Ring) : (s.setRing r k).dirs = s.dirs := rfl
@[simp] theorem State.setRing_msgs (s : State) (r : Nat) (k : Ring) : (s.setRing r k).msgs = s.msgs := rfl
@[simp] theorem State.setRing_pends (s : State) (r : Nat) (k : Ring) : (s.setRing r k).pends = s.pends := rfl
@[simp] theorem State.setRing_halves (s : State) (r : Nat) (k : Ring) : (s.setRing r k).halves = s.halves := rfl
@[simp] theorem State.setRing_filter (s : State) (r : Nat) (k : Ring) : (s.setRing r k).filter = s.filter := rfl
@[simp] theorem State.setRing_tlb2 (s : State) (r : Nat) (k : Ring) : (s.setRing r k).tlb2 = s.tlb2 := rfl
@[simp] theorem State.setRing_hmask (s : State) (r : Nat) (k : Ring) : (s.setRing r k).hmask = s.hmask := rfl
@[simp] theorem State.setRing_frq (s : State) (r : Nat) (k : Ring) : (s.setRing r k).frq = s.frq := rfl
@[simp] theorem State.setRing_tlbiVa (s : State) (r : Nat) (k : Ring) : (s.setRing r k).tlbiVa = s.tlbiVa := rfl
@[simp] theorem State.setRing_tlbiGo (s : State) (r : Nat) (k : Ring) : (s.setRing r k).tlbiGo = s.tlbiGo := rfl
@[simp] theorem State.setRing_tlbiOp (s : State) (r : Nat) (k : Ring) : (s.setRing r k).tlbiOp = s.tlbiOp := rfl
@[simp] theorem State.setRing_tlbiKey (s : State) (r : Nat) (k : Ring) : (s.setRing r k).tlbiKey = s.tlbiKey := rfl
@[simp] theorem State.setRing_tlbiGone (s : State) (r : Nat) (k : Ring) : (s.setRing r k).tlbiGone = s.tlbiGone := rfl
@[simp] theorem State.setRing_copies (s : State) (r : Nat) (k : Ring) : (s.setRing r k).copies = s.copies := rfl
@[simp] theorem State.setRing_prefs (s : State) (r : Nat) (k : Ring) : (s.setRing r k).prefs = s.prefs := rfl
@[simp] theorem State.setRing_dev (s : State) (r : Nat) (k : Ring) : (s.setRing r k).dev = s.dev := rfl
@[simp] theorem State.setRing_fab (s : State) (r : Nat) (k : Ring) : (s.setRing r k).fab = s.fab := rfl
@[simp] theorem State.setRing_jobs (s : State) (r : Nat) (k : Ring) : (s.setRing r k).jobs = s.jobs := rfl
@[simp] theorem State.setRing_order (s : State) (r : Nat) (k : Ring) : (s.setRing r k).order = s.order := rfl
@[simp] theorem State.setRing_ovfBufs (s : State) (r : Nat) (k : Ring) : (s.setRing r k).ovfBufs = s.ovfBufs := rfl
@[simp] theorem State.setRing_reports (s : State) (r : Nat) (k : Ring) : (s.setRing r k).reports = s.reports := rfl
@[simp] theorem State.setRing_fwRoot (s : State) (r : Nat) (k : Ring) : (s.setRing r k).fwRoot = s.fwRoot := rfl
@[simp] theorem State.setRing_outs (s : State) (r : Nat) (k : Ring) : (s.setRing r k).outs = s.outs := rfl

/-! ### `State.setJob` -/

@[simp] theorem State.setJob_turns (s : State) (j : Nat) (k : Job) : (s.setJob j k).turns = s.turns := rfl
@[simp] theorem State.setJob_cur (s : State) (j : Nat) (k : Job) : (s.setJob j k).cur = s.cur := rfl
@[simp] theorem State.setJob_free (s : State) (j : Nat) (k : Job) : (s.setJob j k).free = s.free := rfl
@[simp] theorem State.setJob_cycle (s : State) (j : Nat) (k : Job) : (s.setJob j k).cycle = s.cycle := rfl
@[simp] theorem State.setJob_cores (s : State) (j : Nat) (k : Job) : (s.setJob j k).cores = s.cores := rfl
@[simp] theorem State.setJob_rings (s : State) (j : Nat) (k : Job) : (s.setJob j k).rings = s.rings := rfl
@[simp] theorem State.setJob_mem (s : State) (j : Nat) (k : Job) : (s.setJob j k).mem = s.mem := rfl
@[simp] theorem State.setJob_lineKeys (s : State) (j : Nat) (k : Job) : (s.setJob j k).lineKeys = s.lineKeys := rfl
@[simp] theorem State.setJob_poison (s : State) (j : Nat) (k : Job) : (s.setJob j k).poison = s.poison := rfl
@[simp] theorem State.setJob_lineHomes (s : State) (j : Nat) (k : Job) : (s.setJob j k).lineHomes = s.lineHomes := rfl
@[simp] theorem State.setJob_splits (s : State) (j : Nat) (k : Job) : (s.setJob j k).splits = s.splits := rfl
@[simp] theorem State.setJob_backs (s : State) (j : Nat) (k : Job) : (s.setJob j k).backs = s.backs := rfl
@[simp] theorem State.setJob_dirs (s : State) (j : Nat) (k : Job) : (s.setJob j k).dirs = s.dirs := rfl
@[simp] theorem State.setJob_msgs (s : State) (j : Nat) (k : Job) : (s.setJob j k).msgs = s.msgs := rfl
@[simp] theorem State.setJob_pends (s : State) (j : Nat) (k : Job) : (s.setJob j k).pends = s.pends := rfl
@[simp] theorem State.setJob_halves (s : State) (j : Nat) (k : Job) : (s.setJob j k).halves = s.halves := rfl
@[simp] theorem State.setJob_filter (s : State) (j : Nat) (k : Job) : (s.setJob j k).filter = s.filter := rfl
@[simp] theorem State.setJob_tlb2 (s : State) (j : Nat) (k : Job) : (s.setJob j k).tlb2 = s.tlb2 := rfl
@[simp] theorem State.setJob_hmask (s : State) (j : Nat) (k : Job) : (s.setJob j k).hmask = s.hmask := rfl
@[simp] theorem State.setJob_frq (s : State) (j : Nat) (k : Job) : (s.setJob j k).frq = s.frq := rfl
@[simp] theorem State.setJob_tlbiVa (s : State) (j : Nat) (k : Job) : (s.setJob j k).tlbiVa = s.tlbiVa := rfl
@[simp] theorem State.setJob_tlbiGo (s : State) (j : Nat) (k : Job) : (s.setJob j k).tlbiGo = s.tlbiGo := rfl
@[simp] theorem State.setJob_tlbiOp (s : State) (j : Nat) (k : Job) : (s.setJob j k).tlbiOp = s.tlbiOp := rfl
@[simp] theorem State.setJob_tlbiKey (s : State) (j : Nat) (k : Job) : (s.setJob j k).tlbiKey = s.tlbiKey := rfl
@[simp] theorem State.setJob_tlbiGone (s : State) (j : Nat) (k : Job) : (s.setJob j k).tlbiGone = s.tlbiGone := rfl
@[simp] theorem State.setJob_copies (s : State) (j : Nat) (k : Job) : (s.setJob j k).copies = s.copies := rfl
@[simp] theorem State.setJob_prefs (s : State) (j : Nat) (k : Job) : (s.setJob j k).prefs = s.prefs := rfl
@[simp] theorem State.setJob_dev (s : State) (j : Nat) (k : Job) : (s.setJob j k).dev = s.dev := rfl
@[simp] theorem State.setJob_fab (s : State) (j : Nat) (k : Job) : (s.setJob j k).fab = s.fab := rfl
@[simp] theorem State.setJob_jobs (s : State) (j : Nat) (k : Job) : (s.setJob j k).jobs = Table.put s.jobs j k := rfl
@[simp] theorem State.setJob_order (s : State) (j : Nat) (k : Job) : (s.setJob j k).order = s.order := rfl
@[simp] theorem State.setJob_ovfBufs (s : State) (j : Nat) (k : Job) : (s.setJob j k).ovfBufs = s.ovfBufs := rfl
@[simp] theorem State.setJob_reports (s : State) (j : Nat) (k : Job) : (s.setJob j k).reports = s.reports := rfl
@[simp] theorem State.setJob_fwRoot (s : State) (j : Nat) (k : Job) : (s.setJob j k).fwRoot = s.fwRoot := rfl
@[simp] theorem State.setJob_outs (s : State) (j : Nat) (k : Job) : (s.setJob j k).outs = s.outs := rfl

/-! ### `State.setMe` -/

@[simp] theorem State.setMe_turns (s : State) (k : Core) : (s.setMe k).turns = s.turns := rfl
@[simp] theorem State.setMe_cur (s : State) (k : Core) : (s.setMe k).cur = s.cur := rfl
@[simp] theorem State.setMe_free (s : State) (k : Core) : (s.setMe k).free = s.free := rfl
@[simp] theorem State.setMe_cycle (s : State) (k : Core) : (s.setMe k).cycle = s.cycle := rfl
@[simp] theorem State.setMe_cores (s : State) (k : Core) : (s.setMe k).cores = Table.put s.cores s.cur k := rfl
@[simp] theorem State.setMe_rings (s : State) (k : Core) : (s.setMe k).rings = s.rings := rfl
@[simp] theorem State.setMe_mem (s : State) (k : Core) : (s.setMe k).mem = s.mem := rfl
@[simp] theorem State.setMe_lineKeys (s : State) (k : Core) : (s.setMe k).lineKeys = s.lineKeys := rfl
@[simp] theorem State.setMe_poison (s : State) (k : Core) : (s.setMe k).poison = s.poison := rfl
@[simp] theorem State.setMe_lineHomes (s : State) (k : Core) : (s.setMe k).lineHomes = s.lineHomes := rfl
@[simp] theorem State.setMe_splits (s : State) (k : Core) : (s.setMe k).splits = s.splits := rfl
@[simp] theorem State.setMe_backs (s : State) (k : Core) : (s.setMe k).backs = s.backs := rfl
@[simp] theorem State.setMe_dirs (s : State) (k : Core) : (s.setMe k).dirs = s.dirs := rfl
@[simp] theorem State.setMe_msgs (s : State) (k : Core) : (s.setMe k).msgs = s.msgs := rfl
@[simp] theorem State.setMe_pends (s : State) (k : Core) : (s.setMe k).pends = s.pends := rfl
@[simp] theorem State.setMe_halves (s : State) (k : Core) : (s.setMe k).halves = s.halves := rfl
@[simp] theorem State.setMe_filter (s : State) (k : Core) : (s.setMe k).filter = s.filter := rfl
@[simp] theorem State.setMe_tlb2 (s : State) (k : Core) : (s.setMe k).tlb2 = s.tlb2 := rfl
@[simp] theorem State.setMe_hmask (s : State) (k : Core) : (s.setMe k).hmask = s.hmask := rfl
@[simp] theorem State.setMe_frq (s : State) (k : Core) : (s.setMe k).frq = s.frq := rfl
@[simp] theorem State.setMe_tlbiVa (s : State) (k : Core) : (s.setMe k).tlbiVa = s.tlbiVa := rfl
@[simp] theorem State.setMe_tlbiGo (s : State) (k : Core) : (s.setMe k).tlbiGo = s.tlbiGo := rfl
@[simp] theorem State.setMe_tlbiOp (s : State) (k : Core) : (s.setMe k).tlbiOp = s.tlbiOp := rfl
@[simp] theorem State.setMe_tlbiKey (s : State) (k : Core) : (s.setMe k).tlbiKey = s.tlbiKey := rfl
@[simp] theorem State.setMe_tlbiGone (s : State) (k : Core) : (s.setMe k).tlbiGone = s.tlbiGone := rfl
@[simp] theorem State.setMe_copies (s : State) (k : Core) : (s.setMe k).copies = s.copies := rfl
@[simp] theorem State.setMe_prefs (s : State) (k : Core) : (s.setMe k).prefs = s.prefs := rfl
@[simp] theorem State.setMe_dev (s : State) (k : Core) : (s.setMe k).dev = s.dev := rfl
@[simp] theorem State.setMe_fab (s : State) (k : Core) : (s.setMe k).fab = s.fab := rfl
@[simp] theorem State.setMe_jobs (s : State) (k : Core) : (s.setMe k).jobs = s.jobs := rfl
@[simp] theorem State.setMe_order (s : State) (k : Core) : (s.setMe k).order = s.order := rfl
@[simp] theorem State.setMe_ovfBufs (s : State) (k : Core) : (s.setMe k).ovfBufs = s.ovfBufs := rfl
@[simp] theorem State.setMe_reports (s : State) (k : Core) : (s.setMe k).reports = s.reports := rfl
@[simp] theorem State.setMe_fwRoot (s : State) (k : Core) : (s.setMe k).fwRoot = s.fwRoot := rfl
@[simp] theorem State.setMe_outs (s : State) (k : Core) : (s.setMe k).outs = s.outs := rfl

/-! ### `State.andThen` -/

@[simp] theorem State.andThen_turns (s : State) (t : Turn) : (s.andThen t).turns = s.turns ++ [t] := rfl
@[simp] theorem State.andThen_cur (s : State) (t : Turn) : (s.andThen t).cur = s.cur := rfl
@[simp] theorem State.andThen_free (s : State) (t : Turn) : (s.andThen t).free = s.free := rfl
@[simp] theorem State.andThen_cycle (s : State) (t : Turn) : (s.andThen t).cycle = s.cycle := rfl
@[simp] theorem State.andThen_cores (s : State) (t : Turn) : (s.andThen t).cores = s.cores := rfl
@[simp] theorem State.andThen_rings (s : State) (t : Turn) : (s.andThen t).rings = s.rings := rfl
@[simp] theorem State.andThen_mem (s : State) (t : Turn) : (s.andThen t).mem = s.mem := rfl
@[simp] theorem State.andThen_lineKeys (s : State) (t : Turn) : (s.andThen t).lineKeys = s.lineKeys := rfl
@[simp] theorem State.andThen_poison (s : State) (t : Turn) : (s.andThen t).poison = s.poison := rfl
@[simp] theorem State.andThen_lineHomes (s : State) (t : Turn) : (s.andThen t).lineHomes = s.lineHomes := rfl
@[simp] theorem State.andThen_splits (s : State) (t : Turn) : (s.andThen t).splits = s.splits := rfl
@[simp] theorem State.andThen_backs (s : State) (t : Turn) : (s.andThen t).backs = s.backs := rfl
@[simp] theorem State.andThen_dirs (s : State) (t : Turn) : (s.andThen t).dirs = s.dirs := rfl
@[simp] theorem State.andThen_msgs (s : State) (t : Turn) : (s.andThen t).msgs = s.msgs := rfl
@[simp] theorem State.andThen_pends (s : State) (t : Turn) : (s.andThen t).pends = s.pends := rfl
@[simp] theorem State.andThen_halves (s : State) (t : Turn) : (s.andThen t).halves = s.halves := rfl
@[simp] theorem State.andThen_filter (s : State) (t : Turn) : (s.andThen t).filter = s.filter := rfl
@[simp] theorem State.andThen_tlb2 (s : State) (t : Turn) : (s.andThen t).tlb2 = s.tlb2 := rfl
@[simp] theorem State.andThen_hmask (s : State) (t : Turn) : (s.andThen t).hmask = s.hmask := rfl
@[simp] theorem State.andThen_frq (s : State) (t : Turn) : (s.andThen t).frq = s.frq := rfl
@[simp] theorem State.andThen_tlbiVa (s : State) (t : Turn) : (s.andThen t).tlbiVa = s.tlbiVa := rfl
@[simp] theorem State.andThen_tlbiGo (s : State) (t : Turn) : (s.andThen t).tlbiGo = s.tlbiGo := rfl
@[simp] theorem State.andThen_tlbiOp (s : State) (t : Turn) : (s.andThen t).tlbiOp = s.tlbiOp := rfl
@[simp] theorem State.andThen_tlbiKey (s : State) (t : Turn) : (s.andThen t).tlbiKey = s.tlbiKey := rfl
@[simp] theorem State.andThen_tlbiGone (s : State) (t : Turn) : (s.andThen t).tlbiGone = s.tlbiGone := rfl
@[simp] theorem State.andThen_copies (s : State) (t : Turn) : (s.andThen t).copies = s.copies := rfl
@[simp] theorem State.andThen_prefs (s : State) (t : Turn) : (s.andThen t).prefs = s.prefs := rfl
@[simp] theorem State.andThen_dev (s : State) (t : Turn) : (s.andThen t).dev = s.dev := rfl
@[simp] theorem State.andThen_fab (s : State) (t : Turn) : (s.andThen t).fab = s.fab := rfl
@[simp] theorem State.andThen_jobs (s : State) (t : Turn) : (s.andThen t).jobs = s.jobs := rfl
@[simp] theorem State.andThen_order (s : State) (t : Turn) : (s.andThen t).order = s.order := rfl
@[simp] theorem State.andThen_ovfBufs (s : State) (t : Turn) : (s.andThen t).ovfBufs = s.ovfBufs := rfl
@[simp] theorem State.andThen_reports (s : State) (t : Turn) : (s.andThen t).reports = s.reports := rfl
@[simp] theorem State.andThen_fwRoot (s : State) (t : Turn) : (s.andThen t).fwRoot = s.fwRoot := rfl
@[simp] theorem State.andThen_outs (s : State) (t : Turn) : (s.andThen t).outs = s.outs := rfl

/-! ### `State.emit` -/

@[simp] theorem State.emit_turns (s : State) (o : Output) : (s.emit o).turns = s.turns := rfl
@[simp] theorem State.emit_cur (s : State) (o : Output) : (s.emit o).cur = s.cur := rfl
@[simp] theorem State.emit_free (s : State) (o : Output) : (s.emit o).free = s.free := rfl
@[simp] theorem State.emit_cycle (s : State) (o : Output) : (s.emit o).cycle = s.cycle := rfl
@[simp] theorem State.emit_cores (s : State) (o : Output) : (s.emit o).cores = s.cores := rfl
@[simp] theorem State.emit_rings (s : State) (o : Output) : (s.emit o).rings = s.rings := rfl
@[simp] theorem State.emit_mem (s : State) (o : Output) : (s.emit o).mem = s.mem := rfl
@[simp] theorem State.emit_lineKeys (s : State) (o : Output) : (s.emit o).lineKeys = s.lineKeys := rfl
@[simp] theorem State.emit_poison (s : State) (o : Output) : (s.emit o).poison = s.poison := rfl
@[simp] theorem State.emit_lineHomes (s : State) (o : Output) : (s.emit o).lineHomes = s.lineHomes := rfl
@[simp] theorem State.emit_splits (s : State) (o : Output) : (s.emit o).splits = s.splits := rfl
@[simp] theorem State.emit_backs (s : State) (o : Output) : (s.emit o).backs = s.backs := rfl
@[simp] theorem State.emit_dirs (s : State) (o : Output) : (s.emit o).dirs = s.dirs := rfl
@[simp] theorem State.emit_msgs (s : State) (o : Output) : (s.emit o).msgs = s.msgs := rfl
@[simp] theorem State.emit_pends (s : State) (o : Output) : (s.emit o).pends = s.pends := rfl
@[simp] theorem State.emit_halves (s : State) (o : Output) : (s.emit o).halves = s.halves := rfl
@[simp] theorem State.emit_filter (s : State) (o : Output) : (s.emit o).filter = s.filter := rfl
@[simp] theorem State.emit_tlb2 (s : State) (o : Output) : (s.emit o).tlb2 = s.tlb2 := rfl
@[simp] theorem State.emit_hmask (s : State) (o : Output) : (s.emit o).hmask = s.hmask := rfl
@[simp] theorem State.emit_frq (s : State) (o : Output) : (s.emit o).frq = s.frq := rfl
@[simp] theorem State.emit_tlbiVa (s : State) (o : Output) : (s.emit o).tlbiVa = s.tlbiVa := rfl
@[simp] theorem State.emit_tlbiGo (s : State) (o : Output) : (s.emit o).tlbiGo = s.tlbiGo := rfl
@[simp] theorem State.emit_tlbiOp (s : State) (o : Output) : (s.emit o).tlbiOp = s.tlbiOp := rfl
@[simp] theorem State.emit_tlbiKey (s : State) (o : Output) : (s.emit o).tlbiKey = s.tlbiKey := rfl
@[simp] theorem State.emit_tlbiGone (s : State) (o : Output) : (s.emit o).tlbiGone = s.tlbiGone := rfl
@[simp] theorem State.emit_copies (s : State) (o : Output) : (s.emit o).copies = s.copies := rfl
@[simp] theorem State.emit_prefs (s : State) (o : Output) : (s.emit o).prefs = s.prefs := rfl
@[simp] theorem State.emit_dev (s : State) (o : Output) : (s.emit o).dev = s.dev := rfl
@[simp] theorem State.emit_fab (s : State) (o : Output) : (s.emit o).fab = s.fab := rfl
@[simp] theorem State.emit_jobs (s : State) (o : Output) : (s.emit o).jobs = s.jobs := rfl
@[simp] theorem State.emit_order (s : State) (o : Output) : (s.emit o).order = s.order := rfl
@[simp] theorem State.emit_ovfBufs (s : State) (o : Output) : (s.emit o).ovfBufs = s.ovfBufs := rfl
@[simp] theorem State.emit_reports (s : State) (o : Output) : (s.emit o).reports = s.reports := rfl
@[simp] theorem State.emit_fwRoot (s : State) (o : Output) : (s.emit o).fwRoot = s.fwRoot := rfl
@[simp] theorem State.emit_outs (s : State) (o : Output) : (s.emit o).outs = s.outs ++ [o] := rfl

/-! ### `State.drew` -/

@[simp] theorem State.drew_turns (s : State) : (s.drew).turns = s.turns := rfl
@[simp] theorem State.drew_cur (s : State) : (s.drew).cur = s.cur := rfl
@[simp] theorem State.drew_free (s : State) : (s.drew).free = s.free + 1 := rfl
@[simp] theorem State.drew_cycle (s : State) : (s.drew).cycle = s.cycle := rfl
@[simp] theorem State.drew_cores (s : State) : (s.drew).cores = s.cores := rfl
@[simp] theorem State.drew_rings (s : State) : (s.drew).rings = s.rings := rfl
@[simp] theorem State.drew_mem (s : State) : (s.drew).mem = s.mem := rfl
@[simp] theorem State.drew_lineKeys (s : State) : (s.drew).lineKeys = s.lineKeys := rfl
@[simp] theorem State.drew_poison (s : State) : (s.drew).poison = s.poison := rfl
@[simp] theorem State.drew_lineHomes (s : State) : (s.drew).lineHomes = s.lineHomes := rfl
@[simp] theorem State.drew_splits (s : State) : (s.drew).splits = s.splits := rfl
@[simp] theorem State.drew_backs (s : State) : (s.drew).backs = s.backs := rfl
@[simp] theorem State.drew_dirs (s : State) : (s.drew).dirs = s.dirs := rfl
@[simp] theorem State.drew_msgs (s : State) : (s.drew).msgs = s.msgs := rfl
@[simp] theorem State.drew_pends (s : State) : (s.drew).pends = s.pends := rfl
@[simp] theorem State.drew_halves (s : State) : (s.drew).halves = s.halves := rfl
@[simp] theorem State.drew_filter (s : State) : (s.drew).filter = s.filter := rfl
@[simp] theorem State.drew_tlb2 (s : State) : (s.drew).tlb2 = s.tlb2 := rfl
@[simp] theorem State.drew_hmask (s : State) : (s.drew).hmask = s.hmask := rfl
@[simp] theorem State.drew_frq (s : State) : (s.drew).frq = s.frq := rfl
@[simp] theorem State.drew_tlbiVa (s : State) : (s.drew).tlbiVa = s.tlbiVa := rfl
@[simp] theorem State.drew_tlbiGo (s : State) : (s.drew).tlbiGo = s.tlbiGo := rfl
@[simp] theorem State.drew_tlbiOp (s : State) : (s.drew).tlbiOp = s.tlbiOp := rfl
@[simp] theorem State.drew_tlbiKey (s : State) : (s.drew).tlbiKey = s.tlbiKey := rfl
@[simp] theorem State.drew_tlbiGone (s : State) : (s.drew).tlbiGone = s.tlbiGone := rfl
@[simp] theorem State.drew_copies (s : State) : (s.drew).copies = s.copies := rfl
@[simp] theorem State.drew_prefs (s : State) : (s.drew).prefs = s.prefs := rfl
@[simp] theorem State.drew_dev (s : State) : (s.drew).dev = s.dev := rfl
@[simp] theorem State.drew_fab (s : State) : (s.drew).fab = s.fab := rfl
@[simp] theorem State.drew_jobs (s : State) : (s.drew).jobs = s.jobs := rfl
@[simp] theorem State.drew_order (s : State) : (s.drew).order = s.order := rfl
@[simp] theorem State.drew_ovfBufs (s : State) : (s.drew).ovfBufs = s.ovfBufs := rfl
@[simp] theorem State.drew_reports (s : State) : (s.drew).reports = s.reports := rfl
@[simp] theorem State.drew_fwRoot (s : State) : (s.drew).fwRoot = s.fwRoot := rfl
@[simp] theorem State.drew_outs (s : State) : (s.drew).outs = s.outs := rfl

/-! ### `State.padPut` -/

@[simp] theorem State.padPut_turns (s : State) (c o n v : Nat) : (s.padPut c o n v).turns = s.turns := rfl
@[simp] theorem State.padPut_cur (s : State) (c o n v : Nat) : (s.padPut c o n v).cur = s.cur := rfl
@[simp] theorem State.padPut_free (s : State) (c o n v : Nat) : (s.padPut c o n v).free = s.free := rfl
@[simp] theorem State.padPut_cycle (s : State) (c o n v : Nat) : (s.padPut c o n v).cycle = s.cycle := rfl
@[simp] theorem State.padPut_cores (s : State) (c o n v : Nat) : (s.padPut c o n v).cores = s.cores := rfl
@[simp] theorem State.padPut_rings (s : State) (c o n v : Nat) : (s.padPut c o n v).rings = s.rings := rfl
@[simp] theorem State.padPut_mem (s : State) (c o n v : Nat) : (s.padPut c o n v).mem = Memory.writeN s.mem (padKey c o) n v := rfl
@[simp] theorem State.padPut_lineKeys (s : State) (c o n v : Nat) : (s.padPut c o n v).lineKeys = s.lineKeys := rfl
@[simp] theorem State.padPut_poison (s : State) (c o n v : Nat) : (s.padPut c o n v).poison = s.poison := rfl
@[simp] theorem State.padPut_lineHomes (s : State) (c o n v : Nat) : (s.padPut c o n v).lineHomes = s.lineHomes := rfl
@[simp] theorem State.padPut_splits (s : State) (c o n v : Nat) : (s.padPut c o n v).splits = s.splits := rfl
@[simp] theorem State.padPut_backs (s : State) (c o n v : Nat) : (s.padPut c o n v).backs = s.backs := rfl
@[simp] theorem State.padPut_dirs (s : State) (c o n v : Nat) : (s.padPut c o n v).dirs = s.dirs := rfl
@[simp] theorem State.padPut_msgs (s : State) (c o n v : Nat) : (s.padPut c o n v).msgs = s.msgs := rfl
@[simp] theorem State.padPut_pends (s : State) (c o n v : Nat) : (s.padPut c o n v).pends = s.pends := rfl
@[simp] theorem State.padPut_halves (s : State) (c o n v : Nat) : (s.padPut c o n v).halves = s.halves := rfl
@[simp] theorem State.padPut_filter (s : State) (c o n v : Nat) : (s.padPut c o n v).filter = s.filter := rfl
@[simp] theorem State.padPut_tlb2 (s : State) (c o n v : Nat) : (s.padPut c o n v).tlb2 = s.tlb2 := rfl
@[simp] theorem State.padPut_hmask (s : State) (c o n v : Nat) : (s.padPut c o n v).hmask = s.hmask := rfl
@[simp] theorem State.padPut_frq (s : State) (c o n v : Nat) : (s.padPut c o n v).frq = s.frq := rfl
@[simp] theorem State.padPut_tlbiVa (s : State) (c o n v : Nat) : (s.padPut c o n v).tlbiVa = s.tlbiVa := rfl
@[simp] theorem State.padPut_tlbiGo (s : State) (c o n v : Nat) : (s.padPut c o n v).tlbiGo = s.tlbiGo := rfl
@[simp] theorem State.padPut_tlbiOp (s : State) (c o n v : Nat) : (s.padPut c o n v).tlbiOp = s.tlbiOp := rfl
@[simp] theorem State.padPut_tlbiKey (s : State) (c o n v : Nat) : (s.padPut c o n v).tlbiKey = s.tlbiKey := rfl
@[simp] theorem State.padPut_tlbiGone (s : State) (c o n v : Nat) : (s.padPut c o n v).tlbiGone = s.tlbiGone := rfl
@[simp] theorem State.padPut_copies (s : State) (c o n v : Nat) : (s.padPut c o n v).copies = s.copies := rfl
@[simp] theorem State.padPut_prefs (s : State) (c o n v : Nat) : (s.padPut c o n v).prefs = s.prefs := rfl
@[simp] theorem State.padPut_dev (s : State) (c o n v : Nat) : (s.padPut c o n v).dev = s.dev := rfl
@[simp] theorem State.padPut_fab (s : State) (c o n v : Nat) : (s.padPut c o n v).fab = s.fab := rfl
@[simp] theorem State.padPut_jobs (s : State) (c o n v : Nat) : (s.padPut c o n v).jobs = s.jobs := rfl
@[simp] theorem State.padPut_order (s : State) (c o n v : Nat) : (s.padPut c o n v).order = s.order := rfl
@[simp] theorem State.padPut_ovfBufs (s : State) (c o n v : Nat) : (s.padPut c o n v).ovfBufs = s.ovfBufs := rfl
@[simp] theorem State.padPut_reports (s : State) (c o n v : Nat) : (s.padPut c o n v).reports = s.reports := rfl
@[simp] theorem State.padPut_fwRoot (s : State) (c o n v : Nat) : (s.padPut c o n v).fwRoot = s.fwRoot := rfl
@[simp] theorem State.padPut_outs (s : State) (c o n v : Nat) : (s.padPut c o n v).outs = s.outs := rfl

/-- A component by a bounded index is the component by that number. -/
theorem vector_get {α : Type} {n : Nat} (v : Vector α n) (i : Fin n) : v.get i = v[i.val] := rfl

/-! ### Cores, rings and jobs -/

@[simp] theorem State.core_setCore_same (s : State) (c : Nat) (k : Core) : (s.setCore c k).core c = k := by
  simp [State.core]

theorem State.core_setCore_ne (s : State) (c d : Nat) (k : Core) (h : d ≠ c) : (s.setCore c k).core d = s.core d := by
  simp [State.core, Table.get_put_ne _ _ _ _ _ h]

@[simp] theorem State.ring_setRing_same (s : State) (r : Nat) (k : Ring) : (s.setRing r k).ring r = k := by
  simp [State.ring]

theorem State.ring_setRing_ne (s : State) (r q : Nat) (k : Ring) (h : q ≠ r) : (s.setRing r k).ring q = s.ring q := by
  simp [State.ring, Table.get_put_ne _ _ _ _ _ h]

@[simp] theorem State.job_setJob_same (s : State) (j : Nat) (k : Job) : (s.setJob j k).job j = k := by
  simp [State.job]

@[simp] theorem State.me_setMe (s : State) (k : Core) : (s.setMe k).me = k := by simp [State.me, State.setMe]

@[simp] theorem State.ring_setCore (s : State) (c r : Nat) (k : Core) : (s.setCore c k).ring r = s.ring r := rfl

@[simp] theorem State.ring_setMe (s : State) (r : Nat) (k : Core) : (s.setMe k).ring r = s.ring r := rfl

@[simp] theorem State.myRing_setMe (s : State) (k : Core) : (s.setMe k).myRing = s.myRing := rfl

@[simp] theorem State.core_setRing (s : State) (r c : Nat) (k : Ring) : (s.setRing r k).core c = s.core c := rfl

@[simp] theorem State.speculative_setMe (s : State) (k : Core) : (s.setMe k).speculative = s.speculative := rfl

theorem State.core_setMe_ne (s : State) (k : Core) (d : Nat) (h : d ≠ s.cur) : (s.setMe k).core d = s.core d :=
  State.core_setCore_ne s s.cur d k h

/-! ### Scalar registers (R307) -/

@[simp] theorem Core.getX_zero (c : Core) : c.getX 0 = 0 := rfl

/-- A write to `x0` is discarded. -/
@[simp] theorem Core.setX_zero (c : Core) (w : Word) : c.setX 0 w = c := rfl

/-- A write touches nothing but the two banks of scalar registers. -/
theorem Core.setX_eq (c : Core) (r : Reg) (w : Word) :
    c.setX r w = { c with x := (c.setX r w).x, hx := (c.setX r w).hx } := by
  unfold Core.setX
  split
  · rfl
  · split <;> rfl

theorem Core.getX_setX_same (c : Core) (r : Reg) (w : Word) (h : r ≠ 0) : (c.setX r w).getX r = w := by
  have h0 : r.val ≠ 0 := fun e => h (Fin.ext e)
  unfold Core.setX
  by_cases hh : c.handler = true ∧ r.val < 16
  · simp [h0, hh, Core.getX, vector_get]
  · simp [h0, hh, Core.getX, vector_get]

theorem Core.getX_setX_ne (c : Core) (r q : Reg) (w : Word) (h : q ≠ r) : (c.setX r w).getX q = c.getX q := by
  have hv : r.val ≠ q.val := fun e => h (Fin.ext e.symm)
  unfold Core.setX
  split
  · rfl
  · split
    · rename_i hr
      unfold Core.getX
      split
      · rfl
      · simp only [vector_get]
        split
        · exact Vector.getElem_set_ne _ _ hv
        · rfl
    · rename_i hr
      unfold Core.getX
      split
      · rfl
      · simp only [vector_get]
        split
        · rfl
        · exact Vector.getElem_set_ne _ _ hv

@[simp] theorem Core.setX_v (c : Core) (r : Reg) (w : Word) : (c.setX r w).v = c.v := by rw [Core.setX_eq]
@[simp] theorem Core.setX_p (c : Core) (r : Reg) (w : Word) : (c.setX r w).p = c.p := by rw [Core.setX_eq]
@[simp] theorem Core.setX_t (c : Core) (r : Reg) (w : Word) : (c.setX r w).t = c.t := by rw [Core.setX_eq]
@[simp] theorem Core.setX_q (c : Core) (r : Reg) (w : Word) : (c.setX r w).q = c.q := by rw [Core.setX_eq]
@[simp] theorem Core.setX_pc (c : Core) (r : Reg) (w : Word) : (c.setX r w).pc = c.pc := by rw [Core.setX_eq]
@[simp] theorem Core.setX_handler (c : Core) (r : Reg) (w : Word) : (c.setX r w).handler = c.handler := by rw [Core.setX_eq]
@[simp] theorem Core.setX_vl (c : Core) (r : Reg) (w : Word) : (c.setX r w).vl = c.vl := by rw [Core.setX_eq]
@[simp] theorem Core.setX_vtype (c : Core) (r : Reg) (w : Word) : (c.setX r w).vtype = c.vtype := by rw [Core.setX_eq]
@[simp] theorem Core.setX_lanes (c : Core) (r : Reg) (w : Word) : (c.setX r w).lanes = c.lanes := by rw [Core.setX_eq]
@[simp] theorem Core.setX_fflags (c : Core) (r : Reg) (w : Word) : (c.setX r w).fflags = c.fflags := by rw [Core.setX_eq]
@[simp] theorem Core.setX_frm (c : Core) (r : Reg) (w : Word) : (c.setX r w).frm = c.frm := by rw [Core.setX_eq]
@[simp] theorem Core.setX_tren (c : Core) (r : Reg) (w : Word) : (c.setX r w).tren = c.tren := by rw [Core.setX_eq]
@[simp] theorem Core.setX_srseed (c : Core) (r : Reg) (w : Word) : (c.setX r w).srseed = c.srseed := by rw [Core.setX_eq]
@[simp] theorem Core.setX_vcm (c : Core) (r : Reg) (w : Word) : (c.setX r w).vcm = c.vcm := by rw [Core.setX_eq]
@[simp] theorem Core.setX_vcmOn (c : Core) (r : Reg) (w : Word) : (c.setX r w).vcmOn = c.vcmOn := by rw [Core.setX_eq]
@[simp] theorem Core.setX_mreq (c : Core) (r : Reg) (w : Word) : (c.setX r w).mreq = c.mreq := by rw [Core.setX_eq]
@[simp] theorem Core.setX_mslabs (c : Core) (r : Reg) (w : Word) : (c.setX r w).mslabs = c.mslabs := by rw [Core.setX_eq]
@[simp] theorem Core.setX_tshape (c : Core) (r : Reg) (w : Word) : (c.setX r w).tshape = c.tshape := by rw [Core.setX_eq]
@[simp] theorem Core.setX_tpAct (c : Core) (r : Reg) (w : Word) : (c.setX r w).tpAct = c.tpAct := by rw [Core.setX_eq]
@[simp] theorem Core.setX_tpProg (c : Core) (r : Reg) (w : Word) : (c.setX r w).tpProg = c.tpProg := by rw [Core.setX_eq]
@[simp] theorem Core.setX_staging (c : Core) (r : Reg) (w : Word) : (c.setX r w).staging = c.staging := by rw [Core.setX_eq]
@[simp] theorem Core.setX_strip (c : Core) (r : Reg) (w : Word) : (c.setX r w).strip = c.strip := by rw [Core.setX_eq]
@[simp] theorem Core.setX_levels (c : Core) (r : Reg) (w : Word) : (c.setX r w).levels = c.levels := by rw [Core.setX_eq]
@[simp] theorem Core.setX_inds (c : Core) (r : Reg) (w : Word) : (c.setX r w).inds = c.inds := by rw [Core.setX_eq]
@[simp] theorem Core.setX_regions (c : Core) (r : Reg) (w : Word) : (c.setX r w).regions = c.regions := by rw [Core.setX_eq]
@[simp] theorem Core.setX_logTail (c : Core) (r : Reg) (w : Word) : (c.setX r w).logTail = c.logTail := by rw [Core.setX_eq]
@[simp] theorem Core.setX_logOvf (c : Core) (r : Reg) (w : Word) : (c.setX r w).logOvf = c.logOvf := by rw [Core.setX_eq]
@[simp] theorem Core.setX_logBase (c : Core) (r : Reg) (w : Word) : (c.setX r w).logBase = c.logBase := by rw [Core.setX_eq]
@[simp] theorem Core.setX_logEn (c : Core) (r : Reg) (w : Word) : (c.setX r w).logEn = c.logEn := by rw [Core.setX_eq]
@[simp] theorem Core.setX_rb (c : Core) (r : Reg) (w : Word) : (c.setX r w).rb = c.rb := by rw [Core.setX_eq]
@[simp] theorem Core.setX_rbovf (c : Core) (r : Reg) (w : Word) : (c.setX r w).rbovf = c.rbovf := by rw [Core.setX_eq]
@[simp] theorem Core.setX_cpmask (c : Core) (r : Reg) (w : Word) : (c.setX r w).cpmask = c.cpmask := by rw [Core.setX_eq]
@[simp] theorem Core.setX_tvec (c : Core) (r : Reg) (w : Word) : (c.setX r w).tvec = c.tvec := by rw [Core.setX_eq]
@[simp] theorem Core.setX_tcause (c : Core) (r : Reg) (w : Word) : (c.setX r w).tcause = c.tcause := by rw [Core.setX_eq]
@[simp] theorem Core.setX_tepc (c : Core) (r : Reg) (w : Word) : (c.setX r w).tepc = c.tepc := by rw [Core.setX_eq]
@[simp] theorem Core.setX_tval (c : Core) (r : Reg) (w : Word) : (c.setX r w).tval = c.tval := by rw [Core.setX_eq]
@[simp] theorem Core.setX_tmask (c : Core) (r : Reg) (w : Word) : (c.setX r w).tmask = c.tmask := by rw [Core.setX_eq]
@[simp] theorem Core.setX_tstk (c : Core) (r : Reg) (w : Word) : (c.setX r w).tstk = c.tstk := by rw [Core.setX_eq]
@[simp] theorem Core.setX_ctxbase (c : Core) (r : Reg) (w : Word) : (c.setX r w).ctxbase = c.ctxbase := by rw [Core.setX_eq]
@[simp] theorem Core.setX_utvec (c : Core) (r : Reg) (w : Word) : (c.setX r w).utvec = c.utvec := by rw [Core.setX_eq]
@[simp] theorem Core.setX_ucause (c : Core) (r : Reg) (w : Word) : (c.setX r w).ucause = c.ucause := by rw [Core.setX_eq]
@[simp] theorem Core.setX_uepc (c : Core) (r : Reg) (w : Word) : (c.setX r w).uepc = c.uepc := by rw [Core.setX_eq]
@[simp] theorem Core.setX_uval (c : Core) (r : Reg) (w : Word) : (c.setX r w).uval = c.uval := by rw [Core.setX_eq]
@[simp] theorem Core.setX_lret (c : Core) (r : Reg) (w : Word) : (c.setX r w).lret = c.lret := by rw [Core.setX_eq]
@[simp] theorem Core.setX_scalarFails (c : Core) (r : Reg) (w : Word) : (c.setX r w).scalarFails = c.scalarFails := by rw [Core.setX_eq]
@[simp] theorem Core.setX_withdrawn (c : Core) (r : Reg) (w : Word) : (c.setX r w).withdrawn = c.withdrawn := by rw [Core.setX_eq]
@[simp] theorem Core.setX_asleep (c : Core) (r : Reg) (w : Word) : (c.setX r w).asleep = c.asleep := by rw [Core.setX_eq]
@[simp] theorem Core.setX_wait (c : Core) (r : Reg) (w : Word) : (c.setX r w).wait = c.wait := by rw [Core.setX_eq]
@[simp] theorem Core.setX_held (c : Core) (r : Reg) (w : Word) : (c.setX r w).held = c.held := by rw [Core.setX_eq]
@[simp] theorem Core.setX_stopping (c : Core) (r : Reg) (w : Word) : (c.setX r w).stopping = c.stopping := by rw [Core.setX_eq]
@[simp] theorem Core.setX_logged (c : Core) (r : Reg) (w : Word) : (c.setX r w).logged = c.logged := by rw [Core.setX_eq]
@[simp] theorem Core.setX_covered (c : Core) (r : Reg) (w : Word) : (c.setX r w).covered = c.covered := by rw [Core.setX_eq]
@[simp] theorem Core.setX_l1 (c : Core) (r : Reg) (w : Word) : (c.setX r w).l1 = c.l1 := by rw [Core.setX_eq]
@[simp] theorem Core.setX_partials (c : Core) (r : Reg) (w : Word) : (c.setX r w).partials = c.partials := by rw [Core.setX_eq]
@[simp] theorem Core.setX_tlb (c : Core) (r : Reg) (w : Word) : (c.setX r w).tlb = c.tlb := by rw [Core.setX_eq]
@[simp] theorem Core.setX_icache (c : Core) (r : Reg) (w : Word) : (c.setX r w).icache = c.icache := by rw [Core.setX_eq]
@[simp] theorem Core.setX_sbuf (c : Core) (r : Reg) (w : Word) : (c.setX r w).sbuf = c.sbuf := by rw [Core.setX_eq]
@[simp] theorem Core.setX_rfilter (c : Core) (r : Reg) (w : Word) : (c.setX r w).rfilter = c.rfilter := by rw [Core.setX_eq]
@[simp] theorem Core.setX_contribs (c : Core) (r : Reg) (w : Word) : (c.setX r w).contribs = c.contribs := by rw [Core.setX_eq]
@[simp] theorem Core.setX_oreqs (c : Core) (r : Reg) (w : Word) : (c.setX r w).oreqs = c.oreqs := by rw [Core.setX_eq]
@[simp] theorem Core.setX_issued (c : Core) (r : Reg) (w : Word) : (c.setX r w).issued = c.issued := by rw [Core.setX_eq]
@[simp] theorem Core.setX_completed (c : Core) (r : Reg) (w : Word) : (c.setX r w).completed = c.completed := by rw [Core.setX_eq]
@[simp] theorem Core.setX_mseq (c : Core) (r : Reg) (w : Word) : (c.setX r w).mseq = c.mseq := by rw [Core.setX_eq]
@[simp] theorem Core.setX_spill (c : Core) (r : Reg) (w : Word) : (c.setX r w).spill = c.spill := by rw [Core.setX_eq]
@[simp] theorem Core.setX_saved (c : Core) (r : Reg) (w : Word) : (c.setX r w).saved = c.saved := by rw [Core.setX_eq]

/-! ### Predicate registers, vector registers and tiles -/

/-- A write to `p0` is discarded. -/
@[simp] theorem Core.setP_zero (c : Core) (b : BitVec 512) : c.setP 0 b = c := rfl

theorem Core.setP_eq (c : Core) (n : Fin 16) (b : BitVec 512) : c.setP n b = { c with p := (c.setP n b).p } := by
  unfold Core.setP
  split <;> rfl

theorem Core.getP_setP_same (c : Core) (n : Fin 16) (b : BitVec 512) (h : n ≠ 0) : (c.setP n b).getP n = b := by
  have h0 : n.val ≠ 0 := fun e => h (Fin.ext e)
  simp [Core.setP, Core.getP, h0, vector_get]

theorem Core.getP_setP_ne (c : Core) (n q : Fin 16) (b : BitVec 512) (h : q ≠ n) : (c.setP n b).getP q = c.getP q := by
  have hv : n.val ≠ q.val := fun e => h (Fin.ext e.symm)
  unfold Core.setP
  split
  · rfl
  · unfold Core.getP
    split
    · rfl
    · simp only [vector_get]
      exact Vector.getElem_set_ne _ _ hv

@[simp] theorem Core.getV_setV_same (c : Core) (r : Reg) (b : BitVec 4096) : (c.setV r b).getV r = b := by
  simp [Core.setV, Core.getV, vector_get]

theorem Core.getV_setV_ne (c : Core) (r q : Reg) (b : BitVec 4096) (h : q ≠ r) : (c.setV r b).getV q = c.getV q := by
  have hv : r.val ≠ q.val := fun e => h (Fin.ext e.symm)
  simp only [Core.setV, Core.getV, vector_get]
  exact Vector.getElem_set_ne _ _ hv

@[simp] theorem Core.getT_setT_same (c : Core) (n : Fin 4) (b : BitVec 131072) : (c.setT n b).getT n = b := by
  simp [Core.setT, Core.getT, vector_get]

theorem Core.getT_setT_ne (c : Core) (n q : Fin 4) (b : BitVec 131072) (h : q ≠ n) : (c.setT n b).getT q = c.getT q := by
  have hv : n.val ≠ q.val := fun e => h (Fin.ext e.symm)
  simp only [Core.setT, Core.getT, vector_get]
  exact Vector.getElem_set_ne _ _ hv

end Sys2Proof.Machine
end

