-- ==== Sys2Proof/Laws/Operations.lean ====
section
/-! SUPPORT. What each operation shared by the meanings can do, said once: the checks before an instruction's effect,
taking a trap and returning from it, and how an instruction with flags ends. -/

namespace Sys2Proof.Machine

open Sys2Proof

/-! ### Checks -/

/-- A guard that holds lets the instruction go on. -/
theorem guarded_active (gd : Guard) (len : Nat) (s : State) (k : State → State) (h : s.active0 gd = true) :
    guarded gd len s k = k s := by simp [guarded, h]

/-- A guard that does not hold lets it only advance. -/
theorem guarded_inactive (gd : Guard) (len : Nat) (s : State) (k : State → State) (h : s.active0 gd = false) :
    guarded gd len s k = s.adv len := by simp [guarded, h]

/-- The always-true guard holds in every state (R298). -/
theorem active0_always (s : State) : s.active0 { g := 0, gn := false } = true := by
  simp [State.active0, Core.active, Core.getP]

/-- The never-true guard holds in no state (R298). -/
theorem active0_never (s : State) : s.active0 { g := 0, gn := true } = false := by
  simp [State.active0, Core.active, Core.getP]

theorem operandOk_cases (ok : Bool) (s : State) (k : State → State) :
    (ok = true ∧ operandOk ok s k = k s) ∨ (ok = false ∧ operandOk ok s k = operandTrap s) := by
  cases ok <;> simp [operandOk]

theorem threadOnly_cases (s : State) (k : State → State) :
    (s.me.handler = false ∧ threadOnly s k = k s) ∨ (s.me.handler = true ∧ threadOnly s k = privileged s) := by
  cases h : s.me.handler <;> simp [threadOnly, h]

theorem noRegion_cases (s : State) (k : State → State) :
    ((s.me.handler = true ∨ s.me.depth = 0) ∧ noRegion s k = k s) ∨
      (s.me.handler = false ∧ s.me.depth ≠ 0 ∧ noRegion s k = irrevocable s) := by
  cases h : s.me.handler <;> by_cases d : s.me.depth = 0 <;> simp [noRegion, h, d]

/-- A commit point executes except in a speculative chunk, which stalls at it (R154). -/
theorem commitPoint_cases (s : State) (k : State → State) :
    (s.speculative = false ∧ commitPoint s k = k s.committing) ∨
      (s.speculative = true ∧ commitPoint s k = s.waitFor .commitPoint) := by
  cases h : s.speculative <;> simp [commitPoint, h]

/-- A core that holds no chunk is not speculative. -/
theorem speculative_of_no_chunk (s : State) (h : s.myChunk = none) : s.speculative = false := by
  unfold State.speculative
  split
  · rfl
  · rename_i k ks e
    have h' : (k :: ks).find? (fun c => c.slot == slotOf s.cur) = none := by rw [← e]; exact h
    have h2 := List.find?_eq_none.mp h'
    have h3 : ks.any (fun c => c.slot == slotOf s.cur) = false := by
      rw [List.any_eq_false]; exact fun x hx => h2 x (List.mem_cons_of_mem _ hx)
    rw [h3, Bool.and_false]

/-- Outside forked execution a commit point changes nothing of its own. -/
theorem committing_of_no_chunk (s : State) (h : s.myChunk = none) : s.committing = s := by
  have h' : (s.ring (s.cur / 16)).chunkAt (slotOf s.cur) = none := h
  simp [State.committing, State.drainSbuf, h', State.unrepairable, h]

/-- Outside forked execution no store waits for a commit. -/
theorem drainSbuf_of_no_chunk (s : State) (h : s.myChunk = none) : s.drainSbuf s.cur = s := by
  have h' : (s.ring (s.cur / 16)).chunkAt (slotOf s.cur) = none := h
  simp [State.drainSbuf, h']

theorem wideSync_cases (wide : Bool) (s : State) (k : State → State) :
    ((wide = false ∨ s.inRegion = false) ∧ wideSync wide s k = k s) ∨
      (wide = true ∧ s.inRegion = true ∧ wideSync wide s k = irrevocable s) := by
  cases wide <;> cases h : s.inRegion <;> simp [wideSync, h]

/-- With no sticky fault an instruction goes on (R234), but in a speculative chunk, which stalls first (R154). -/
theorem sticky_clear (s : State) (k : State → State) (h : s.me.tstk = 0) :
    sticky s k = if s.speculative && !s.me.handler then s.waitFor .commitPoint else k s := by
  simp [sticky, stickyTrap, h]

/-! ### Traps -/

/-- A trap has one of three outcomes (R156, R232, R233); one that recurs was deferred (R228). -/
theorem takeTrap_cases (t : Trap) (s : State) :
    (s.me.handler = false ∧ s.speculative = true ∧ takeTrap t s = deferTrap s) ∨
      (s.me.handler = true ∧ takeTrap t s = s.abortTrap t.code t.epc t.val) ∨
      (s.me.handler = false ∧ s.speculative = false ∧
        takeTrap t s = (s.deferring false).setMe (s.me.enter { t with dfr := t.dfr || s.wasDeferred })) := by
  cases h : s.me.handler <;> cases g : s.speculative <;> simp [takeTrap, h, g]

/-- Outside forked execution a trap was not deferred: it enters the handler as it is. -/
theorem takeTrap_of_no_chunk (t : Trap) (s : State) (h : s.me.handler = false) (g : s.myChunk = none) :
    takeTrap t s = s.setMe (s.me.enter t) := by
  have hs := speculative_of_no_chunk s g
  simp [takeTrap, h, hs, State.deferring, State.wasDeferred, g]

/-- Entering the resident handler: what is saved, the mode, and where execution goes on (R232). -/
theorem enter_saves (c : Core) (t : Trap) :
    (c.enter t).tcause = t.cause (0 < c.depth) ∧ (c.enter t).tepc = t.epc ∧ (c.enter t).tval = t.val ∧
      (c.enter t).handler = true ∧ (c.enter t).pc = c.tvec := ⟨rfl, rfl, rfl, rfl, rfl⟩

/-- Entering the handler leaves the registers of the thread. -/
theorem enter_keeps (c : Core) (t : Trap) :
    (c.enter t).x = c.x ∧ (c.enter t).v = c.v ∧ (c.enter t).p = c.p ∧ (c.enter t).t = c.t ∧
      (c.enter t).fflags = c.fflags ∧ (c.enter t).hx = c.hx := ⟨rfl, rfl, rfl, rfl, rfl, rfl⟩

/-- The return from the handler gives back the mode and the address it was entered from (R361). -/
theorem returnTrap_me (s : State) : (returnTrap s).me = { s.me with handler := false, pc := s.me.tepc } := by
  simp [returnTrap]

/-- Entry and return together change only the trap registers and what was waited for. -/
theorem enter_return (c : Core) (t : Trap) :
    { c.enter t with handler := false, pc := (c.enter t).tepc } =
      { c with tcause := t.cause (0 < c.depth), tepc := t.epc, tval := t.val, handler := false, wait := .none,
               pc := t.epc } := rfl

/-! ### Ends of instructions -/

/-- An instruction that sets no enabled flag goes on (R231). -/
theorem arithEnd_quiet (fl : BitVec 5) (mask : BitVec 512) (s s' : State) (h : fl &&& s.me.tren = 0) :
    arithEnd fl mask s s' = s' := by simp [arithEnd, h]

/-- An instruction that sets no flag goes on whatever is enabled. -/
@[simp] theorem arithEnd_zero (mask : BitVec 512) (s s' : State) : arithEnd 0 mask s s' = s' := by
  simp [arithEnd]

/-- The executing core after its pc moved. -/
@[simp] theorem me_adv (s : State) (n : Nat) : (s.adv n).me = { s.me with pc := s.me.pc + wd n } := by
  simp [State.adv, State.setPc, State.pc]

/-- The executing core after a scalar register was written. -/
@[simp] theorem me_setX (s : State) (r : Reg) (w : Word) : (s.setX r w).me = s.me.setX r w := by simp [State.setX]

/-- The executing core after flags were set. -/
@[simp] theorem me_orFlags (s : State) (f : BitVec 5) :
    (s.orFlags f).me = { s.me with fflags := s.me.fflags ||| f } := by simp [State.orFlags]

@[simp] theorem mem_adv (s : State) (n : Nat) : (s.adv n).mem = s.mem := rfl
@[simp] theorem mem_setX (s : State) (r : Reg) (w : Word) : (s.setX r w).mem = s.mem := rfl
@[simp] theorem mem_orFlags (s : State) (f : BitVec 5) : (s.orFlags f).mem = s.mem := rfl
@[simp] theorem mem_waitFor (s : State) (w : Wait) : (s.waitFor w).mem = s.mem := rfl
@[simp] theorem cur_adv (s : State) (n : Nat) : (s.adv n).cur = s.cur := rfl
@[simp] theorem cur_setX (s : State) (r : Reg) (w : Word) : (s.setX r w).cur = s.cur := rfl
@[simp] theorem cur_orFlags (s : State) (f : BitVec 5) : (s.orFlags f).cur = s.cur := rfl

/-- Moving past an instruction changes no other core, no ring and no memory. -/
theorem adv_frame (s : State) (n : Nat) :
    s.adv n = { s with cores := Table.put s.cores s.cur { s.me with pc := s.me.pc + wd n } } := rfl

end Sys2Proof.Machine
end

