-- ==== Sys2Proof/Laws/PerInstr.lean ====
section
/-! SUPPORT. Per-instruction lemmas of the family `Encoding`: the encoder gives words of 32 bits whose length code
announces their number. -/

namespace Sys2Proof.Laws.Encoding

open Sys2Proof

/-- Every word the encoder gives has 32 bits, and the length code of the first announces how many there are (R292); the
pad word stands outside the length codes (R293). -/
def Statement (i : Instr) : Prop :=
  ∀ ws, encode i = some ws → (∀ w ∈ ws, w < 2 ^ 32) ∧ (i = .padWord ∨ lenOf (ws.headD 0) = 4 * ws.length)

theorem word0_lt (len op : Nat) (r : Raw) (hl : len < 4) (ho : op < 256) : Raw.word0 len op r < 2 ^ 32 := by
  have h1 := r.d.isLt; have h2 := r.a.isLt; have h3 := r.b.isLt
  simp only [Raw.word0]; omega

theorem word0_code (len op : Nat) (r : Raw) (hl : len < 4) : Raw.word0 len op r % 4 = len := by
  simp only [Raw.word0]; omega

theorem word1_lt (r : Raw) : r.word1 < 2 ^ 32 := by
  have h1 := r.c.isLt; have h2 := r.g.isLt; have h3 := r.fn.isLt; have h4 := r.ty.isLt; have h5 := r.m.isLt
  have h6 := Bool.toNat_lt r.gn; have h7 := Bool.toNat_lt r.ca; have h8 := Bool.toNat_lt r.cb
  have h9 := Bool.toNat_lt r.cc
  simp only [Raw.word1]; omega

theorem x_hi_lt (r : Raw) : r.x.toNat / 4294967296 < 2 ^ 32 := by
  have h := r.x.isLt; omega

theorem c64_fits {i : Instr} (op : Nat) (r : Raw) (ho : op < 256) (h : encode i = c64 op r) : Statement i := by
  intro ws hw
  rw [h, c64, Option.some.injEq] at hw
  subst hw
  have h0 := word0_lt 0 op r (by omega) ho
  have h1 := word0_code 0 op r (by omega)
  refine ⟨?_, Or.inr ?_⟩
  · intro w hw; simp at hw; rcases hw with rfl | rfl
    · exact h0
    · exact word1_lt r
  · simp [lenOf, h1]

theorem c96_fits {i : Instr} (op : Nat) (r : Raw) (ho : op < 256) (h : encode i = c96 op r) : Statement i := by
  intro ws hw
  rw [h, c96, Option.some.injEq] at hw
  subst hw
  have h0 := word0_lt 1 op r (by omega) ho
  have h1 := word0_code 1 op r (by omega)
  refine ⟨?_, Or.inr ?_⟩
  · intro w hw; simp at hw; rcases hw with rfl | rfl | rfl
    · exact h0
    · exact word1_lt r
    · omega
  · simp [lenOf, h1]

theorem c128_fits {i : Instr} (op : Nat) (r : Raw) (ho : op < 256) (h : encode i = c128 op r) : Statement i := by
  intro ws hw
  rw [h, c128, Option.some.injEq] at hw
  subst hw
  have h0 := word0_lt 2 op r (by omega) ho
  have h1 := word0_code 2 op r (by omega)
  refine ⟨?_, Or.inr ?_⟩
  · intro w hw; simp at hw; rcases hw with rfl | rfl | rfl | rfl
    · exact h0
    · exact word1_lt r
    · omega
    · exact x_hi_lt r
  · simp [lenOf, h1]

theorem si_fits {i : Instr} (op : Nat) (r : RawSI) (ho : op < 256) (h : encode i = si op r) : Statement i := by
  intro ws hw
  rw [h, si, RawSI.words, Option.some.injEq] at hw
  subst hw
  have h1 := r.d.isLt; have h2 := r.a.isLt; have h3 := r.g.isLt; have h4 := r.fn5.isLt; have h5 := r.imm.isLt
  have h6 := Bool.toNat_lt r.gn
  refine ⟨?_, Or.inr ?_⟩
  · intro w hw; simp at hw; rcases hw with rfl | rfl
    · omega
    · exact h5
  · have h7 : (4 * op + 1024 * r.d.val + 65536 * r.a.val + 4194304 * r.g.val + 67108864 * r.gn.toNat +
        134217728 * r.fn5.val) % 4 = 0 := by omega
    simp [lenOf, h7]

theorem br_fits {i : Instr} (op : Nat) (r : RawBR) (ho : op < 256) (h : encode i = br op r) : Statement i := by
  intro ws hw
  rw [h, br, RawBR.words, Option.some.injEq] at hw
  subst hw
  have h1 := r.d.isLt; have h2 := r.a.isLt; have h3 := r.b.isLt; have h4 := r.cnd.isLt; have h5 := r.off.isLt
  refine ⟨?_, Or.inr ?_⟩
  · intro w hw; simp at hw; rcases hw with rfl | rfl
    · omega
    · exact h5
  · have h7 : (4 * op + 1024 * r.d.val + 65536 * r.a.val + 4194304 * r.b.val + 268435456 * r.cnd.val) % 4 = 0 := by
      omega
    simp [lenOf, h7]

/-- A step of the module has no encoding. -/
theorem none_fits {i : Instr} (h : encode i = none) : Statement i := by
  intro ws hw
  rw [h] at hw
  cases hw

/-! ### One lemma per constructor -/

theorem coldReset (b : BootReport) : Statement (.coldReset b) := none_fits rfl
theorem moduleWarmReset (b : BootReport) : Statement (.moduleWarmReset b) := none_fits rfl
theorem governorSample (n : Fin 32) (depth : BitVec 8) : Statement (.governorSample n depth) := none_fits rfl
theorem governorMoveDone (n : Fin 32) : Statement (.governorMoveDone n) := none_fits rfl
theorem powerMeasurement (m : PowerSample) : Statement (.powerMeasurement m) := none_fits rfl
theorem thermalTrip : Statement (.thermalTrip) := none_fits rfl
theorem tamperAlarm (sensor : Fin 5) : Statement (.tamperAlarm sensor) := none_fits rfl
theorem almCfgWrite (w : BitVec 64) : Statement (.almCfgWrite w) := none_fits rfl
theorem registerWrite (r : RegPath) (w : BitVec 64) : Statement (.registerWrite r w) := none_fits rfl
theorem ualinkFlitTransmit (p : Fin 24) : Statement (.ualinkFlitTransmit p) := none_fits rfl
theorem ualinkFlitReceive (p : Fin 24) (f : UalFlit) : Statement (.ualinkFlitReceive p f) := none_fits rfl
theorem cxlLinkTrain (l : Fin 8) (k : TrainKind) : Statement (.cxlLinkTrain l k) := none_fits rfl
theorem cxlLinkLoss (l : Fin 8) : Statement (.cxlLinkLoss l) := none_fits rfl
theorem tapBypass : Statement (.tapBypass) := none_fits rfl
theorem tapIdcode : Statement (.tapIdcode) := none_fits rfl
theorem tapSamplePreload : Statement (.tapSamplePreload) := none_fits rfl
theorem tapExtest : Statement (.tapExtest) := none_fits rfl
theorem invasiveDebugEnable (ok : Bool) : Statement (.invasiveDebugEnable ok) := none_fits rfl
theorem pldmMonitor : Statement (.pldmMonitor) := none_fits rfl
theorem pldmFwUpdate (item : PldmItem) (v : Nat) : Statement (.pldmFwUpdate item v) := none_fits rfl
theorem routerCycle (n : Fin 256) : Statement (.routerCycle n) := none_fits rfl
theorem starve (n : Fin 256) : Statement (.starve n) := none_fits rfl
theorem packetArrival (pid : Nat) (flips : List (Nat × Nat)) : Statement (.packetArrival pid flips) := none_fits rfl
theorem refusedReceipt (pid : Nat) : Statement (.refusedReceipt pid) := none_fits rfl
theorem acknowledgeReceipt (pid : Nat) : Statement (.acknowledgeReceipt pid) := none_fits rfl
theorem deniedReceipt (pid : Nat) : Statement (.deniedReceipt pid) := none_fits rfl
theorem messageResend (pid : Nat) : Statement (.messageResend pid) := none_fits rfl
theorem sandWindowEnd (pid : Nat) : Statement (.sandWindowEnd pid) := none_fits rfl
theorem sandSourceTimeout (pid : Nat) (block : Nat) : Statement (.sandSourceTimeout pid block) := none_fits rfl
theorem snpData (half : Nat) : Statement (.snpData half) := none_fits rfl
theorem snpInv (half : Nat) : Statement (.snpInv half) := none_fits rfl
theorem snpCur (half : Nat) : Statement (.snpCur half) := none_fits rfl
theorem goReceipt (half : Nat) (g : GoGrant) (data : BitVec 512) : Statement (.goReceipt half g data) := none_fits rfl
theorem hostLineCoreRead (half core : Nat) : Statement (.hostLineCoreRead half core) := none_fits rfl
theorem hostLineCoreWrite (half core : Nat) : Statement (.hostLineCoreWrite half core) := none_fits rfl
theorem hostLineEviction (half : Nat) : Statement (.hostLineEviction half) := none_fits rfl
theorem memRdShared (r : MemReq) : Statement (.memRdShared r) := none_fits rfl
theorem memRdAny (r : MemReq) : Statement (.memRdAny r) := none_fits rfl
theorem memWr (r : MemReq) (data : BitVec 512) (mask : BitVec 64) (m : FilterSt) : Statement (.memWr r data mask m) :=
  none_fits rfl
theorem biCoreRead (l core : Nat) : Statement (.biCoreRead l core) := none_fits rfl
theorem biCoreWrite (l core : Nat) : Statement (.biCoreWrite l core) := none_fits rfl
theorem birspReceipt (l : Nat) (r : BiRsp) (data : Option (BitVec 512)) : Statement (.birspReceipt l r data) :=
  none_fits rfl
theorem filterEviction (l : Nat) : Statement (.filterEviction l) := none_fits rfl
theorem doorbellWrite (b : BellPath) (w : BitVec 64) : Statement (.doorbellWrite b w) := none_fits rfl
theorem doorbellServe (j : Fin 256) : Statement (.doorbellServe j) := none_fits rfl
theorem status : Statement (.status) := none_fits rfl
theorem jobOpen : Statement (.jobOpen) := none_fits rfl
theorem jobClose : Statement (.jobClose) := none_fits rfl
theorem jobCloseDrainDone (j : Fin 256) : Statement (.jobCloseDrainDone j) := none_fits rfl
theorem keyInstall : Statement (.keyInstall) := none_fits rfl
theorem keyClear : Statement (.keyClear) := none_fits rfl
theorem linkKey : Statement (.linkKey) := none_fits rfl
theorem warmReset : Statement (.warmReset) := none_fits rfl
theorem mbxCompletion : Statement (.mbxCompletion) := none_fits rfl
theorem getVersion (l : Fin 8) : Statement (.getVersion l) := none_fits rfl
theorem getCapabilities (l : Fin 8) : Statement (.getCapabilities l) := none_fits rfl
theorem negotiateAlgorithms (l : Fin 8) : Statement (.negotiateAlgorithms l) := none_fits rfl
theorem getDigests (l : Fin 8) : Statement (.getDigests l) := none_fits rfl
theorem getCertificate (l : Fin 8) : Statement (.getCertificate l) := none_fits rfl
theorem challenge (l : Fin 8) (ok : Bool) : Statement (.challenge l ok) := none_fits rfl
theorem getMeasurements (l : Fin 8) (signedOk : Bool) : Statement (.getMeasurements l signedOk) := none_fits rfl
theorem keyExchange (l : Fin 8) : Statement (.keyExchange l) := none_fits rfl
theorem finish (l : Fin 8) (ok : Bool) : Statement (.finish l ok) := none_fits rfl
theorem endSession (l : Fin 8) : Statement (.endSession l) := none_fits rfl
theorem tlbiPage : Statement (.tlbiPage) := none_fits rfl
theorem tlbiKey : Statement (.tlbiKey) := none_fits rfl
theorem tlbiAll : Statement (.tlbiAll) := none_fits rfl
theorem tlbiNothing : Statement (.tlbiNothing) := none_fits rfl
theorem tlbiDone : Statement (.tlbiDone) := none_fits rfl
theorem launchCompletion (j : Fin 256) (r : Fin 4096) : Statement (.launchCompletion j r) := none_fits rfl
theorem conditionEval (j : Fin 256) (r : Fin 4096) : Statement (.conditionEval j r) := none_fits rfl
theorem switchEval (j : Fin 256) (r : Fin 4096) : Statement (.switchEval j r) := none_fits rfl
theorem loopIteration (j : Fin 256) (r : Fin 4096) : Statement (.loopIteration j r) := none_fits rfl
theorem loopBodyDone (j : Fin 256) (r : Fin 4096) : Statement (.loopBodyDone j r) := none_fits rfl
theorem ringAssignment (us : Nat) : Statement (.ringAssignment us) := none_fits rfl
theorem park (j : Fin 256) (r : Fin 4096) : Statement (.park j r) := none_fits rfl
theorem interruptDelivery (ring : Fin 256) (k : IntrKind) : Statement (.interruptDelivery ring k) := none_fits rfl
theorem liveOutArrival (ring : Fin 256) : Statement (.liveOutArrival ring) := none_fits rfl
theorem storeBroadcastArrival (ring : Fin 256) : Statement (.storeBroadcastArrival ring) := none_fits rfl
theorem chunkRestart (core : Fin 4096) : Statement (.chunkRestart core) := none_fits rfl
theorem lookBackProbe (core : Fin 4096) (line : Nat) : Statement (.lookBackProbe core line) := none_fits rfl
theorem siblingInvalidation (core : Fin 4096) (line : Nat) (fwd : Bool) : Statement (.siblingInvalidation core line fwd) :=
  none_fits rfl
theorem chunkCommit (core : Fin 4096) : Statement (.chunkCommit core) := none_fits rfl
theorem loopExit (core : Fin 4096) : Statement (.loopExit core) := none_fits rfl
theorem commitPointExecute (core : Fin 4096) : Statement (.commitPointExecute core) := none_fits rfl
theorem deferredFaultReplay (core : Fin 4096) : Statement (.deferredFaultReplay core) := none_fits rfl
theorem overflowStallEnd (core : Fin 4096) : Statement (.overflowStallEnd core) := none_fits rfl
theorem loadResponse (core : Fin 4096) (entry : Fin 64) : Statement (.loadResponse core entry) := none_fits rfl
theorem gets (core : Fin 4096) (line : Nat) : Statement (.gets core line) := none_fits rfl
theorem getx (core : Fin 4096) (line : Nat) : Statement (.getx core line) := none_fits rfl
theorem upg (core : Fin 4096) (line : Nat) : Statement (.upg core line) := none_fits rfl
theorem puts (core : Fin 4096) (line : Nat) : Statement (.puts core line) := none_fits rfl
theorem putx (core : Fin 4096) (line : Nat) : Statement (.putx core line) := none_fits rfl
theorem invalidationReceipt (core : Fin 4096) (line : Nat) : Statement (.invalidationReceipt core line) :=
  none_fits rfl
theorem forwardReceipt (core : Fin 4096) (line : Nat) : Statement (.forwardReceipt core line) := none_fits rfl
theorem invalidationAck (core : Fin 4096) (line : Nat) : Statement (.invalidationAck core line) := none_fits rfl
theorem dataReceipt (core : Fin 4096) (line : Nat) : Statement (.dataReceipt core line) := none_fits rfl
theorem directoryEviction (line : Nat) : Statement (.directoryEviction line) := none_fits rfl
theorem softWriteBack (core : Fin 4096) (line : Nat) : Statement (.softWriteBack core line) := none_fits rfl
theorem drainRequest (core : Fin 4096) (line : Nat) : Statement (.drainRequest core line) := none_fits rfl
theorem drainAck (core : Fin 4096) (line : Nat) : Statement (.drainAck core line) := none_fits rfl
theorem partialEviction (core : Fin 4096) (line : Nat) : Statement (.partialEviction core line) := none_fits rfl
theorem scopeMissEvent (ring : Fin 256) : Statement (.scopeMissEvent ring) := none_fits rfl
theorem copyKick (core : Fin 4096) (ch : Fin 4) (parity : Bool) : Statement (.copyKick core ch parity) :=
  none_fits rfl
theorem copyCompletion (core : Fin 4096) (ch : Fin 4) : Statement (.copyCompletion core ch) := none_fits rfl
theorem prefComplete (core : Fin 4096) (q : Fin 8) : Statement (.prefComplete core q) := none_fits rfl
theorem laneResidueFailure (f : LaneFail) : Statement (.laneResidueFailure f) := none_fits rfl
theorem scalarResidueFailure (core : Fin 4096) (pc : BitVec 64) : Statement (.scalarResidueFailure core pc) :=
  none_fits rfl
theorem detectedError (core : Fin 4096) (e : ErrorAt) : Statement (.detectedError core e) := none_fits rfl
theorem memoryUncorrectableError (e : MemError) : Statement (.memoryUncorrectableError e) := none_fits rfl
theorem correctableError (e : MemError) : Statement (.correctableError e) := none_fits rfl
theorem icacheParityError (core : Fin 4096) (line : Nat) : Statement (.icacheParityError core line) := none_fits rfl
theorem padWord : Statement (.padWord) := by
  intro ws hw; cases hw; exact ⟨by decide, Or.inl rfl⟩
theorem ssyncComplete (j : Fin 256) (r : Fin 4096) (sc : Fin 16) (unit : Nat) : Statement (.ssyncComplete j r sc unit) :=
  none_fits rfl
theorem drainComplete (core : Fin 4096) : Statement (.drainComplete core) := none_fits rfl
theorem mwaitWake (core : Fin 4096) : Statement (.mwaitWake core) := none_fits rfl
theorem qpushEvent (core : Fin 4096) : Statement (.qpushEvent core) := none_fits rfl
theorem qpopEvent (core : Fin 4096) : Statement (.qpopEvent core) := none_fits rfl
theorem syswRb (o : SyswRbF) : Statement (.syswRb o) := si_fits _ _ (by decide) rfl
theorem syswSmev (o : SyswOne) : Statement (.syswSmev o) := si_fits _ _ (by decide) rfl
theorem syswTstk (o : SyswOne) : Statement (.syswTstk o) := si_fits _ _ (by decide) rfl
theorem syswSrseed (o : SyswOne) : Statement (.syswSrseed o) := si_fits _ _ (by decide) rfl
theorem syswVl (o : SyswOne) : Statement (.syswVl o) := si_fits _ _ (by decide) rfl
theorem syswVtype (o : SyswOne) : Statement (.syswVtype o) := si_fits _ _ (by decide) rfl
theorem syswTshape (o : SyswOne) : Statement (.syswTshape o) := si_fits _ _ (by decide) rfl
theorem syswSpecst (o : SyswOne) : Statement (.syswSpecst o) := si_fits _ _ (by decide) rfl
theorem add (o : XXX) : Statement (.add o) := c64_fits _ _ (by decide) rfl
theorem sub (o : XXX) : Statement (.sub o) := c64_fits _ _ (by decide) rfl
theorem mul (o : XXX) : Statement (.mul o) := c64_fits _ _ (by decide) rfl
theorem mulh (o : XXX) : Statement (.mulh o) := c64_fits _ _ (by decide) rfl
theorem div (o : XXX) : Statement (.div o) := c64_fits _ _ (by decide) rfl
theorem rem (o : XXX) : Statement (.rem o) := c64_fits _ _ (by decide) rfl
theorem and (o : XXX) : Statement (.and o) := c64_fits _ _ (by decide) rfl
theorem or (o : XXX) : Statement (.or o) := c64_fits _ _ (by decide) rfl
theorem xor (o : XXX) : Statement (.xor o) := c64_fits _ _ (by decide) rfl
theorem andn (o : XXX) : Statement (.andn o) := c64_fits _ _ (by decide) rfl
theorem sll (o : XXX) : Statement (.sll o) := c64_fits _ _ (by decide) rfl
theorem srl (o : XXX) : Statement (.srl o) := c64_fits _ _ (by decide) rfl
theorem sra (o : XXX) : Statement (.sra o) := c64_fits _ _ (by decide) rfl
theorem rol (o : XXX) : Statement (.rol o) := c64_fits _ _ (by decide) rfl
theorem min (o : XXX) : Statement (.min o) := c64_fits _ _ (by decide) rfl
theorem max (o : XXX) : Statement (.max o) := c64_fits _ _ (by decide) rfl
theorem adds (o : XXX) : Statement (.adds o) := c64_fits _ _ (by decide) rfl
theorem subs (o : XXX) : Statement (.subs o) := c64_fits _ _ (by decide) rfl
theorem seq (o : XXX) : Statement (.seq o) := c64_fits _ _ (by decide) rfl
theorem slt (o : XXX) : Statement (.slt o) := c64_fits _ _ (by decide) rfl
theorem sle (o : XXX) : Statement (.sle o) := c64_fits _ _ (by decide) rfl
theorem sel (o : XXXX) : Statement (.sel o) := c64_fits _ _ (by decide) rfl
theorem clz (o : XX) : Statement (.clz o) := c64_fits _ _ (by decide) rfl
theorem ctz (o : XX) : Statement (.ctz o) := c64_fits _ _ (by decide) rfl
theorem popc (o : XX) : Statement (.popc o) := c64_fits _ _ (by decide) rfl
theorem ext (o : XXX) : Statement (.ext o) := c64_fits _ _ (by decide) rfl
theorem mov (o : XX) : Statement (.mov o) := c64_fits _ _ (by decide) rfl
theorem addi (o : XXI) : Statement (.addi o) := si_fits _ _ (by decide) rfl
theorem andi (o : XXI) : Statement (.andi o) := si_fits _ _ (by decide) rfl
theorem ori (o : XXI) : Statement (.ori o) := si_fits _ _ (by decide) rfl
theorem xori (o : XXI) : Statement (.xori o) := si_fits _ _ (by decide) rfl
theorem slli (o : XXI) : Statement (.slli o) := si_fits _ _ (by decide) rfl
theorem srli (o : XXI) : Statement (.srli o) := si_fits _ _ (by decide) rfl
theorem srai (o : XXI) : Statement (.srai o) := si_fits _ _ (by decide) rfl
theorem slti (o : XXI) : Statement (.slti o) := si_fits _ _ (by decide) rfl
theorem sltui (o : XXI) : Statement (.sltui o) := si_fits _ _ (by decide) rfl
theorem li (o : XI) : Statement (.li o) := si_fits _ _ (by decide) rfl
theorem lih (o : XXI) : Statement (.lih o) := si_fits _ _ (by decide) rfl
theorem liImm64 (o : XI64) : Statement (.liImm64 o) := c128_fits _ _ (by decide) rfl
theorem lpc (o : XI) : Statement (.lpc o) := si_fits _ _ (by decide) rfl
theorem fadd (o : FXXX) : Statement (.fadd o) := c64_fits _ _ (by decide) rfl
theorem fsub (o : FXXX) : Statement (.fsub o) := c64_fits _ _ (by decide) rfl
theorem fmul (o : FXXX) : Statement (.fmul o) := c64_fits _ _ (by decide) rfl
theorem fdiv (o : FXXX) : Statement (.fdiv o) := c64_fits _ _ (by decide) rfl
theorem fsqrt (o : FXX) : Statement (.fsqrt o) := c64_fits _ _ (by decide) rfl
theorem fma (o : FXXXX) : Statement (.fma o) := c64_fits _ _ (by decide) rfl
theorem fmin (o : FXXX) : Statement (.fmin o) := c64_fits _ _ (by decide) rfl
theorem fmax (o : FXXX) : Statement (.fmax o) := c64_fits _ _ (by decide) rfl
theorem fsgn (o : FSgn) : Statement (.fsgn o) := c64_fits _ _ (by decide) rfl
theorem feq (o : FXXX) : Statement (.feq o) := c64_fits _ _ (by decide) rfl
theorem flt (o : FXXX) : Statement (.flt o) := c64_fits _ _ (by decide) rfl
theorem fle (o : FXXX) : Statement (.fle o) := c64_fits _ _ (by decide) rfl
theorem fclass (o : FXX) : Statement (.fclass o) := c64_fits _ _ (by decide) rfl
theorem fcvt (o : FCvt) : Statement (.fcvt o) := c64_fits _ _ (by decide) rfl
theorem fcvti (o : FCvt) : Statement (.fcvti o) := c64_fits _ _ (by decide) rfl
theorem ficvt (o : FCvt) : Statement (.ficvt o) := c64_fits _ _ (by decide) rfl
theorem nop (o : OnlyGuard) : Statement (.nop o) := c64_fits _ _ (by decide) rfl
theorem jr (o : JumpReg) : Statement (.jr o) := c64_fits _ _ (by decide) rfl
theorem jalr (o : JumpLink) : Statement (.jalr o) := c64_fits _ _ (by decide) rfl
theorem ret (o : JumpReg) : Statement (.ret o) := c64_fits _ _ (by decide) rfl
theorem b (o : BrOff) : Statement (.b o) := br_fits _ _ (by decide) rfl
theorem beq (o : BrCmp) : Statement (.beq o) := br_fits _ _ (by decide) rfl
theorem bne (o : BrCmp) : Statement (.bne o) := br_fits _ _ (by decide) rfl
theorem blt (o : BrCmp) : Statement (.blt o) := br_fits _ _ (by decide) rfl
theorem bge (o : BrCmp) : Statement (.bge o) := br_fits _ _ (by decide) rfl
theorem bltu (o : BrCmp) : Statement (.bltu o) := br_fits _ _ (by decide) rfl
theorem bgeu (o : BrCmp) : Statement (.bgeu o) := br_fits _ _ (by decide) rfl
theorem bpt (o : BrReg) : Statement (.bpt o) := br_fits _ _ (by decide) rfl
theorem bpf (o : BrReg) : Statement (.bpf o) := br_fits _ _ (by decide) rfl
theorem call (o : BrReg) : Statement (.call o) := br_fits _ _ (by decide) rfl
theorem ld (o : LdF) : Statement (.ld o) := c96_fits _ _ (by decide) rfl
theorem ldp (o : LdpF) : Statement (.ldp o) := c96_fits _ _ (by decide) rfl
theorem st (o : StF) : Statement (.st o) := c96_fits _ _ (by decide) rfl
theorem stp (o : StpF) : Statement (.stp o) := c96_fits _ _ (by decide) rfl
theorem fst (o : FstF) : Statement (.fst o) := c96_fits _ _ (by decide) rfl
theorem amoadd (o : AmoF) : Statement (.amoadd o) := c64_fits _ _ (by decide) rfl
theorem amoand (o : AmoF) : Statement (.amoand o) := c64_fits _ _ (by decide) rfl
theorem amoor (o : AmoF) : Statement (.amoor o) := c64_fits _ _ (by decide) rfl
theorem amoxor (o : AmoF) : Statement (.amoxor o) := c64_fits _ _ (by decide) rfl
theorem amoswap (o : AmoF) : Statement (.amoswap o) := c64_fits _ _ (by decide) rfl
theorem amocas (o : CasF) : Statement (.amocas o) := c64_fits _ _ (by decide) rfl
theorem amomin (o : AmoF) : Statement (.amomin o) := c64_fits _ _ (by decide) rfl
theorem amomax (o : AmoF) : Statement (.amomax o) := c64_fits _ _ (by decide) rfl
theorem amofadd (o : AmoF) : Statement (.amofadd o) := c64_fits _ _ (by decide) rfl
theorem amofmax (o : AmoF) : Statement (.amofmax o) := c64_fits _ _ (by decide) rfl
theorem fenceAcq (o : ScopeF) : Statement (.fenceAcq o) := c64_fits _ _ (by decide) rfl
theorem fenceRel (o : ScopeF) : Statement (.fenceRel o) := c64_fits _ _ (by decide) rfl
theorem fenceFull (o : ScopeF) : Statement (.fenceFull o) := c64_fits _ _ (by decide) rfl
theorem ssync (o : ScopeF) : Statement (.ssync o) := c64_fits _ _ (by decide) rfl
theorem relWiden (o : WidenF) : Statement (.relWiden o) := c64_fits _ _ (by decide) rfl
theorem sysr (o : SysrF) : Statement (.sysr o) := si_fits _ _ (by decide) rfl
theorem sysw (o : SyswF) : Statement (.sysw o) := si_fits _ _ (by decide) rfl
theorem tret : Statement (.tret) := c64_fits _ _ (by decide) rfl
theorem uret : Statement (.uret) := c64_fits _ _ (by decide) rfl
theorem setvl (o : SetF) : Statement (.setvl o) := c96_fits _ _ (by decide) rfl
theorem setvt (o : SetF) : Statement (.setvt o) := c96_fits _ _ (by decide) rfl
theorem vloop (o : SetF) : Statement (.vloop o) := c96_fits _ _ (by decide) rfl
theorem vlend (o : OnlyGuard) : Statement (.vlend o) := c96_fits _ _ (by decide) rfl
theorem vadd (o : VVV) : Statement (.vadd o) := c64_fits _ _ (by decide) rfl
theorem vsub (o : VVV) : Statement (.vsub o) := c64_fits _ _ (by decide) rfl
theorem vmul (o : VVV) : Statement (.vmul o) := c64_fits _ _ (by decide) rfl
theorem vmulh (o : VVV) : Statement (.vmulh o) := c64_fits _ _ (by decide) rfl
theorem vdiv (o : VVV) : Statement (.vdiv o) := c64_fits _ _ (by decide) rfl
theorem vrem (o : VVV) : Statement (.vrem o) := c64_fits _ _ (by decide) rfl
theorem vand (o : VVV) : Statement (.vand o) := c64_fits _ _ (by decide) rfl
theorem vor (o : VVV) : Statement (.vor o) := c64_fits _ _ (by decide) rfl
theorem vxor (o : VVV) : Statement (.vxor o) := c64_fits _ _ (by decide) rfl
theorem vandn (o : VVV) : Statement (.vandn o) := c64_fits _ _ (by decide) rfl
theorem vsll (o : VVV) : Statement (.vsll o) := c64_fits _ _ (by decide) rfl
theorem vsrl (o : VVV) : Statement (.vsrl o) := c64_fits _ _ (by decide) rfl
theorem vsra (o : VVV) : Statement (.vsra o) := c64_fits _ _ (by decide) rfl
theorem vmin (o : VVV) : Statement (.vmin o) := c64_fits _ _ (by decide) rfl
theorem vmax (o : VVV) : Statement (.vmax o) := c64_fits _ _ (by decide) rfl
theorem vadds (o : VVV) : Statement (.vadds o) := c64_fits _ _ (by decide) rfl
theorem vsubs (o : VVV) : Statement (.vsubs o) := c64_fits _ _ (by decide) rfl
theorem vabs (o : VV) : Statement (.vabs o) := c64_fits _ _ (by decide) rfl
theorem vneg (o : VV) : Statement (.vneg o) := c64_fits _ _ (by decide) rfl
theorem vmov (o : VV) : Statement (.vmov o) := c64_fits _ _ (by decide) rfl
theorem vsel (o : VVVP) : Statement (.vsel o) := c64_fits _ _ (by decide) rfl
theorem vext (o : VVV) : Statement (.vext o) := c64_fits _ _ (by decide) rfl
theorem vaddScalar (o : VVX) : Statement (.vaddScalar o) := c64_fits _ _ (by decide) rfl
theorem vsubScalar (o : VVX) : Statement (.vsubScalar o) := c64_fits _ _ (by decide) rfl
theorem vmulScalar (o : VVX) : Statement (.vmulScalar o) := c64_fits _ _ (by decide) rfl
theorem vmulhScalar (o : VVX) : Statement (.vmulhScalar o) := c64_fits _ _ (by decide) rfl
theorem vdivScalar (o : VVX) : Statement (.vdivScalar o) := c64_fits _ _ (by decide) rfl
theorem vremScalar (o : VVX) : Statement (.vremScalar o) := c64_fits _ _ (by decide) rfl
theorem vandScalar (o : VVX) : Statement (.vandScalar o) := c64_fits _ _ (by decide) rfl
theorem vorScalar (o : VVX) : Statement (.vorScalar o) := c64_fits _ _ (by decide) rfl
theorem vxorScalar (o : VVX) : Statement (.vxorScalar o) := c64_fits _ _ (by decide) rfl
theorem vandnScalar (o : VVX) : Statement (.vandnScalar o) := c64_fits _ _ (by decide) rfl
theorem vsllScalar (o : VVX) : Statement (.vsllScalar o) := c64_fits _ _ (by decide) rfl
theorem vsrlScalar (o : VVX) : Statement (.vsrlScalar o) := c64_fits _ _ (by decide) rfl
theorem vsraScalar (o : VVX) : Statement (.vsraScalar o) := c64_fits _ _ (by decide) rfl
theorem vminScalar (o : VVX) : Statement (.vminScalar o) := c64_fits _ _ (by decide) rfl
theorem vmaxScalar (o : VVX) : Statement (.vmaxScalar o) := c64_fits _ _ (by decide) rfl
theorem vaddsScalar (o : VVX) : Statement (.vaddsScalar o) := c64_fits _ _ (by decide) rfl
theorem vsubsScalar (o : VVX) : Statement (.vsubsScalar o) := c64_fits _ _ (by decide) rfl
theorem vselScalar (o : VVXP) : Statement (.vselScalar o) := c64_fits _ _ (by decide) rfl
theorem vextScalar (o : VVX) : Statement (.vextScalar o) := c64_fits _ _ (by decide) rfl
theorem vaddImm (o : VVI) : Statement (.vaddImm o) := c96_fits _ _ (by decide) rfl
theorem vsubImm (o : VVI) : Statement (.vsubImm o) := c96_fits _ _ (by decide) rfl
theorem vmulImm (o : VVI) : Statement (.vmulImm o) := c96_fits _ _ (by decide) rfl
theorem vmulhImm (o : VVI) : Statement (.vmulhImm o) := c96_fits _ _ (by decide) rfl
theorem vdivImm (o : VVI) : Statement (.vdivImm o) := c96_fits _ _ (by decide) rfl
theorem vremImm (o : VVI) : Statement (.vremImm o) := c96_fits _ _ (by decide) rfl
theorem vandImm (o : VVI) : Statement (.vandImm o) := c96_fits _ _ (by decide) rfl
theorem vorImm (o : VVI) : Statement (.vorImm o) := c96_fits _ _ (by decide) rfl
theorem vxorImm (o : VVI) : Statement (.vxorImm o) := c96_fits _ _ (by decide) rfl
theorem vandnImm (o : VVI) : Statement (.vandnImm o) := c96_fits _ _ (by decide) rfl
theorem vsllImm (o : VVI) : Statement (.vsllImm o) := c96_fits _ _ (by decide) rfl
theorem vsrlImm (o : VVI) : Statement (.vsrlImm o) := c96_fits _ _ (by decide) rfl
theorem vsraImm (o : VVI) : Statement (.vsraImm o) := c96_fits _ _ (by decide) rfl
theorem vminImm (o : VVI) : Statement (.vminImm o) := c96_fits _ _ (by decide) rfl
theorem vmaxImm (o : VVI) : Statement (.vmaxImm o) := c96_fits _ _ (by decide) rfl
theorem vaddsImm (o : VVI) : Statement (.vaddsImm o) := c96_fits _ _ (by decide) rfl
theorem vsubsImm (o : VVI) : Statement (.vsubsImm o) := c96_fits _ _ (by decide) rfl
theorem vselImm (o : VVIP) : Statement (.vselImm o) := c96_fits _ _ (by decide) rfl
theorem vextImm (o : VVI) : Statement (.vextImm o) := c96_fits _ _ (by decide) rfl
theorem vfadd (o : FVVV) : Statement (.vfadd o) := c64_fits _ _ (by decide) rfl
theorem vfsub (o : FVVV) : Statement (.vfsub o) := c64_fits _ _ (by decide) rfl
theorem vfmul (o : FVVV) : Statement (.vfmul o) := c64_fits _ _ (by decide) rfl
theorem vfdiv (o : FVVV) : Statement (.vfdiv o) := c64_fits _ _ (by decide) rfl
theorem vfsqrt (o : FVV) : Statement (.vfsqrt o) := c64_fits _ _ (by decide) rfl
theorem vfma (o : FVVVV) : Statement (.vfma o) := c64_fits _ _ (by decide) rfl
theorem vfms (o : FVVVV) : Statement (.vfms o) := c64_fits _ _ (by decide) rfl
theorem vfnma (o : FVVVV) : Statement (.vfnma o) := c64_fits _ _ (by decide) rfl
theorem vfmin (o : FVVV) : Statement (.vfmin o) := c64_fits _ _ (by decide) rfl
theorem vfmax (o : FVVV) : Statement (.vfmax o) := c64_fits _ _ (by decide) rfl
theorem vfsgn (o : FVSgn) : Statement (.vfsgn o) := c64_fits _ _ (by decide) rfl
theorem vfabs (o : FVV) : Statement (.vfabs o) := c64_fits _ _ (by decide) rfl
theorem vfneg (o : FVV) : Statement (.vfneg o) := c64_fits _ _ (by decide) rfl
theorem vfaddScalar (o : FVVX) : Statement (.vfaddScalar o) := c64_fits _ _ (by decide) rfl
theorem vfsubScalar (o : FVVX) : Statement (.vfsubScalar o) := c64_fits _ _ (by decide) rfl
theorem vfmulScalar (o : FVVX) : Statement (.vfmulScalar o) := c64_fits _ _ (by decide) rfl
theorem vfdivScalar (o : FVVX) : Statement (.vfdivScalar o) := c64_fits _ _ (by decide) rfl
theorem vfmaScalar (o : FVVXV) : Statement (.vfmaScalar o) := c64_fits _ _ (by decide) rfl
theorem vfmsScalar (o : FVVXV) : Statement (.vfmsScalar o) := c64_fits _ _ (by decide) rfl
theorem vfnmaScalar (o : FVVXV) : Statement (.vfnmaScalar o) := c64_fits _ _ (by decide) rfl
theorem vfminScalar (o : FVVX) : Statement (.vfminScalar o) := c64_fits _ _ (by decide) rfl
theorem vfmaxScalar (o : FVVX) : Statement (.vfmaxScalar o) := c64_fits _ _ (by decide) rfl
theorem vfsgnScalar (o : FVSgnX) : Statement (.vfsgnScalar o) := c64_fits _ _ (by decide) rfl
theorem vcmpEq (o : VCmp) : Statement (.vcmpEq o) := c64_fits _ _ (by decide) rfl
theorem vcmpNe (o : VCmp) : Statement (.vcmpNe o) := c64_fits _ _ (by decide) rfl
theorem vcmpLt (o : VCmp) : Statement (.vcmpLt o) := c64_fits _ _ (by decide) rfl
theorem vcmpLe (o : VCmp) : Statement (.vcmpLe o) := c64_fits _ _ (by decide) rfl
theorem vcmpGt (o : VCmp) : Statement (.vcmpGt o) := c64_fits _ _ (by decide) rfl
theorem vcmpGe (o : VCmp) : Statement (.vcmpGe o) := c64_fits _ _ (by decide) rfl
theorem vcmpUn (o : VCmp) : Statement (.vcmpUn o) := c64_fits _ _ (by decide) rfl
theorem vfclass (o : VVX) : Statement (.vfclass o) := c64_fits _ _ (by decide) rfl
theorem pand (o : PPP) : Statement (.pand o) := c64_fits _ _ (by decide) rfl
theorem por (o : PPP) : Statement (.por o) := c64_fits _ _ (by decide) rfl
theorem pxor (o : PPP) : Statement (.pxor o) := c64_fits _ _ (by decide) rfl
theorem pandn (o : PPP) : Statement (.pandn o) := c64_fits _ _ (by decide) rfl
theorem pnot (o : PP) : Statement (.pnot o) := c64_fits _ _ (by decide) rfl
theorem pmov (o : PP) : Statement (.pmov o) := c64_fits _ _ (by decide) rfl
theorem pfirst (o : PP) : Statement (.pfirst o) := c64_fits _ _ (by decide) rfl
theorem pcount (o : PP) : Statement (.pcount o) := c64_fits _ _ (by decide) rfl
theorem pset (o : PP) : Statement (.pset o) := c64_fits _ _ (by decide) rfl
theorem vperm (o : VVV) : Statement (.vperm o) := c64_fits _ _ (by decide) rfl
theorem vbcast (o : XX) : Statement (.vbcast o) := c64_fits _ _ (by decide) rfl
theorem vslideup (o : VVX) : Statement (.vslideup o) := c64_fits _ _ (by decide) rfl
theorem vslidedn (o : VVX) : Statement (.vslidedn o) := c64_fits _ _ (by decide) rfl
theorem vcompress (o : VV) : Statement (.vcompress o) := c64_fits _ _ (by decide) rfl
theorem vexpand (o : VV) : Statement (.vexpand o) := c64_fits _ _ (by decide) rfl
theorem vextr (o : VVX) : Statement (.vextr o) := c64_fits _ _ (by decide) rfl
theorem vins (o : XXX) : Statement (.vins o) := c64_fits _ _ (by decide) rfl
theorem vrev (o : VV) : Statement (.vrev o) := c64_fits _ _ (by decide) rfl
theorem vredoSum (o : VRed) : Statement (.vredoSum o) := c64_fits _ _ (by decide) rfl
theorem vredtSum (o : VRed) : Statement (.vredtSum o) := c64_fits _ _ (by decide) rfl
theorem vredMax (o : VRed) : Statement (.vredMax o) := c64_fits _ _ (by decide) rfl
theorem vredMin (o : VRed) : Statement (.vredMin o) := c64_fits _ _ (by decide) rfl
theorem vredAnd (o : VRed) : Statement (.vredAnd o) := c64_fits _ _ (by decide) rfl
theorem vredOr (o : VRed) : Statement (.vredOr o) := c64_fits _ _ (by decide) rfl
theorem vredXor (o : VRed) : Statement (.vredXor o) := c64_fits _ _ (by decide) rfl
theorem vredsSum (o : VRedS) : Statement (.vredsSum o) := c64_fits _ _ (by decide) rfl
theorem vredsMean (o : VRedS) : Statement (.vredsMean o) := c64_fits _ _ (by decide) rfl
theorem vsscanSum (o : VRed) : Statement (.vsscanSum o) := c64_fits _ _ (by decide) rfl
theorem vsscanMax (o : VRed) : Statement (.vsscanMax o) := c64_fits _ _ (by decide) rfl
theorem vsredSum (o : VRed) : Statement (.vsredSum o) := c64_fits _ _ (by decide) rfl
theorem vsredMax (o : VRed) : Statement (.vsredMax o) := c64_fits _ _ (by decide) rfl
theorem vcvt (o : VCvt) : Statement (.vcvt o) := c64_fits _ _ (by decide) rfl
theorem vcvti (o : VCvt2) : Statement (.vcvti o) := c64_fits _ _ (by decide) rfl
theorem vicvt (o : VCvt2) : Statement (.vicvt o) := c64_fits _ _ (by decide) rfl
theorem vquant (o : VQnt) : Statement (.vquant o) := c64_fits _ _ (by decide) rfl
theorem vld (o : VLdF) : Statement (.vld o) := c96_fits _ _ (by decide) rfl
theorem vst (o : VStF) : Statement (.vst o) := c96_fits _ _ (by decide) rfl
theorem vlds (o : VLdsF) : Statement (.vlds o) := c96_fits _ _ (by decide) rfl
theorem vsts (o : VStsF) : Statement (.vsts o) := c96_fits _ _ (by decide) rfl
theorem vgath (o : VGathF) : Statement (.vgath o) := c64_fits _ _ (by decide) rfl
theorem vscat (o : VScatF) : Statement (.vscat o) := c64_fits _ _ (by decide) rfl
theorem vldff (o : VLdF) : Statement (.vldff o) := c96_fits _ _ (by decide) rfl
theorem vldt (o : VLdsF) : Statement (.vldt o) := c96_fits _ _ (by decide) rfl
theorem matt (o : MAttF) : Statement (.matt o) := c64_fits _ _ (by decide) rfl
theorem mdet (o : MDetF) : Statement (.mdet o) := c64_fits _ _ (by decide) rfl
theorem mzero (o : MZeroF) : Statement (.mzero o) := c64_fits _ _ (by decide) rfl
theorem mma (o : MmaF) : Statement (.mma o) := c64_fits _ _ (by decide) rfl
theorem mmam (o : MmamF) : Statement (.mmam o) := c64_fits _ _ (by decide) rfl
theorem mmaBlock (o : MmaBF) : Statement (.mmaBlock o) := c128_fits _ _ (by decide) rfl
theorem mmamBlock (o : MmamBF) : Statement (.mmamBlock o) := c128_fits _ _ (by decide) rfl
theorem mldt (o : MRowF) : Statement (.mldt o) := c64_fits _ _ (by decide) rfl
theorem mstt (o : MSttF) : Statement (.mstt o) := c64_fits _ _ (by decide) rfl
theorem mmov (o : MRowF) : Statement (.mmov o) := c64_fits _ _ (by decide) rfl
theorem mmovWr (o : MMovWrF) : Statement (.mmovWr o) := c64_fits _ _ (by decide) rfl
theorem fork (o : ForkF) : Statement (.fork o) := c96_fits _ _ (by decide) rfl
theorem chk : Statement (.chk) := c64_fits _ _ (by decide) rfl
theorem join : Statement (.join) := c64_fits _ _ (by decide) rfl
theorem nospec : Statement (.nospec) := c64_fits _ _ (by decide) rfl
theorem ind (o : RegImm) : Statement (.ind o) := c96_fits _ _ (by decide) rfl
theorem rgnBegin (o : RegImm) : Statement (.rgnBegin o) := c96_fits _ _ (by decide) rfl
theorem rgnKeep (o : KeepF) : Statement (.rgnKeep o) := c64_fits _ _ (by decide) rfl
theorem rgnEnd : Statement (.rgnEnd) := c64_fits _ _ (by decide) rfl
theorem send (o : SendF) : Statement (.send o) := c64_fits _ _ (by decide) rfl
theorem sends (o : SendF) : Statement (.sends o) := c64_fits _ _ (by decide) rfl
theorem mpoll (o : MBufF) : Statement (.mpoll o) := c64_fits _ _ (by decide) rfl
theorem mwait (o : MBufF) : Statement (.mwait o) := c64_fits _ _ (by decide) rfl
theorem mpop (o : MBufF) : Statement (.mpop o) := c64_fits _ _ (by decide) rfl
theorem ratom (o : RatomF) : Statement (.ratom o) := c64_fits _ _ (by decide) rfl
theorem cpy (o : CpyF) : Statement (.cpy o) := c64_fits _ _ (by decide) rfl
theorem cpyv (o : CpyvF) : Statement (.cpyv o) := c64_fits _ _ (by decide) rfl
theorem drain (o : DrainF) : Statement (.drain o) := c64_fits _ _ (by decide) rfl
theorem pref (o : TriF) : Statement (.pref o) := c64_fits _ _ (by decide) rfl
theorem qwait (o : DuoF) : Statement (.qwait o) := c64_fits _ _ (by decide) rfl
theorem arm (o : DuoF) : Statement (.arm o) := c64_fits _ _ (by decide) rfl
theorem qpush (o : QPushF) : Statement (.qpush o) := c64_fits _ _ (by decide) rfl
theorem qpop (o : TriF) : Statement (.qpop o) := c64_fits _ _ (by decide) rfl
theorem exit (o : ExitF) : Statement (.exit o) := c64_fits _ _ (by decide) rfl
theorem powerOff : Statement (.powerOff) := none_fits rfl
theorem coreRetentionSleep (core : Fin 4096) : Statement (.coreRetentionSleep core) := none_fits rfl
theorem ideKmRequest (l : Fin 8) (stream : Fin 2) (switch : Bool) : Statement (.ideKmRequest l stream switch) :=
  none_fits rfl

end Sys2Proof.Laws.Encoding
end

