-- ==== Sys2Proof/Tests/Slice0.lean ====
section
/-! SUPPORT. Tests: ill-formed terms, words written out from the spec's encodings, one step on small states, and for
every statement with hypotheses a state and operands that meet them. Values come from the spec's rules and examples. -/

namespace Sys2Proof.Tests

open Sys2Proof Sys2Proof.Machine Sys2Proof.Spec

noncomputable section

set_option Elab.async false

/-! ### Small states -/

/-- Where the small threads stand; no test fetches there. -/
def pc0 : Word := 0x600000000100#64

/-- The thread of the small states, which runs in ring 0 for record 0 of job 0. -/
def th0 : Thread := { job := 0, record := 0, ordinal := 0, key := 1 }
def ring0 : Ring := { key := 1, thread := some th0 }

/-- A state whose one thread runs on core 0, which is as given. -/
def on (c : Core) : State :=
  { State.reset with
    cores := [(0, { c with pc := pc0 })]
    rings := [(0, ring0)]
    jobs := [(0, { st := .open_, key := 1, recs := [(0, { st := .running })] })] }

/-- A core whose scalar registers listed here hold these values. -/
def xs (l : List (Nat × Word)) : Core := l.foldl (fun (c : Core) e => c.setX (Fin.ofNat 64 e.1) e.2) {}

/-- The thread on core 0, all registers zero; the same in its handler; and with a level-one vector length of 8. -/
def t0 : State := on {}
def handling : State := on { handler := true }
def vec8 : State := on { vl := 8 }

/-- The state after an instruction. -/
def after (i : Instr) (s : State) : State :=
  match exec i s with
  | .next t => t
  | _ => s

/-- The guards that always hold and never hold. -/
def un : Guard := { g := 0, gn := false }
def hid : Guard := { g := 0, gn := true }

/-- Window address of core 0's scratchpad. -/
def pad0 : Word := 0xFE00000000000000#64

/-- What is so of the one value there is holds of every value there is. -/
theorem every {α : Type} {P : α → Prop} {o : Option α} {a : α} (h : o = some a) (p : P a) : ∀ t, o = some t → P t := by
  intro t e
  rw [h] at e
  cases e
  exact p

theorem every_of_none {α : Type} {P : α → Prop} {o : Option α} (h : o = none) : ∀ t, o = some t → P t := by
  intro t e
  rw [h] at e
  cases e

/-- How an access ended, as a test of its answer. -/
theorem ok_of (r : Res) (h : (match r with | .ok .. => true | _ => false) = true) : ∃ v t, r = .ok v t := by
  cases r <;> simp_all

theorem flt_of (r : Res) (p : AccFault → State → Bool)
    (h : (match r with | .flt f t => p f t | _ => false) = true) : ∃ f t, r = .flt f t ∧ p f t = true := by
  cases r with
  | flt f t => exact ⟨f, t, rfl, h⟩
  | _ => simp at h

theorem some_of {α : Type} (o : Option α) (p : α → Bool) (h : o.any p = true) : ∃ a, o = some a ∧ p a = true := by
  cases o with
  | some a => exact ⟨a, rfl, h⟩
  | none => simp at h

theorem wait_of (r : Res) (h : (match r with | .wait .. => true | _ => false) = true) : ∃ w t, r = .wait w t := by
  cases r <;> simp_all

/-- The thread on core 0 with the page at `bootVa` mapped coherent, readable and writable. -/
def mapped (c : Core) : State :=
  let s := placeWord State.reset 64 0
  { s with turns := [], cores := [(0, { c with pc := pc0 })] }

/-- The same with the page mapped io. -/
def ioMapped (c : Core) : State :=
  let s := mapped c
  { s with mem := Memory.writeN s.mem (bootTables + 0x8000) 8 (bootTables + 0x10000 + 0xF80 + 3) }

/-- The one port to which the route table leads a device. -/
theorem port_of (s : State) (die dev addr u : Nat) (v : (Table.get s.fab.drt dev 0).getLsbD 63 = true)
    (all : (List.range 24).filter (fun p => (Table.get s.fab.drt dev 0).getLsbD (24 + p)) = [u]) :
    s.portOut die dev addr = some u := by
  unfold State.portOut
  simp only [all, v, Bool.not_true, Bool.false_eq_true, if_false]
  cases h : u / 6 == die <;> simp [h, Nat.mod_one]

/-- A message of core 0 to core 1 that is still on its way. -/
def pkt0 : Pkt :=
  { pid := 5, src := 0, dst := 0, lane := 0, kind := 7, key := 1, seq := 0, score := 0, sdev := 0, dcore := 1, buf := 0
    mseq := 0, tag := 0, payload := [], sand := false, sdl := 0 }

/-- A state whose fabric holds these packets. -/
def carrying (ps : List Pkt) (s : State) : State := { s with fab := { s.fab with pkts := ps, nextPid := 9 } }

/-! ### Ill-formed terms, one for each check of `Instr.wfSub` (R297, R300 to R302, R306) -/

theorem test_illFormed_types :
    (Instr.add { d := 1, a := 2, b := 3, ty := .f32, gd := un }).wfSub = some 8 ∧
    (Instr.fadd { d := 1, a := 2, b := 3, ty := .e4m3, rm := 0, gd := un }).wfSub = some 8 ∧
    (Instr.fcvt { d := 1, a := 2, ty := .e2m1, src := .f32, rm := 0, gd := un }).wfSub = some 8 ∧
    (Instr.ficvt { d := 1, a := 2, ty := .i32, src := .i32, rm := 0, gd := un }).wfSub = some 8 ∧
    (Instr.ld { d := 1, a := 2, imm := 0, ty := .e2m1, acq := false, fr := false, sc := 0, gd := un }).wfSub = some 8 ∧
    (Instr.fst { a := 1, b := 2, imm := 0, ty := .n32, sc := 0, gd := un }).wfSub = some 8 ∧
    (Instr.amoadd { d := 1, a := 2, b := 3, ty := .i8, acq := false, rel := false, sc := 0, gd := un }).wfSub = some 8 ∧
    (Instr.amofadd { d := 1, a := 2, b := 3, ty := .n64, acq := false, rel := false, sc := 0, gd := un }).wfSub = some 8 ∧
    (Instr.vcmpUn { d := 1, a := 2, b := 3, xb := false, ca := false, cb := false, ty := .i8, gd := un }).wfSub = some 8 ∧
    (Instr.vbcast { d := 1, a := 2, ty := .mx4, gd := un }).wfSub = some 8 ∧
    (Instr.vcvt { d := 1, a := 2, b := 0, sat := false, ca := false, ty := .f32, src := .i32, rm := 0, gd := un }).wfSub =
      some 8 ∧
    (Instr.vquant { d := 2, a := 2, b := 0, ca := false, ty := .mx8, src := .f64, rm := 0, gd := un }).wfSub = some 8 ∧
    (Instr.mma { d := 1, a := 2, b := 8, ca := false, cb := false, w := false, ty := .mx4, rm := 0, gd := un }).wfSub = some 8 ∧
    (Instr.mldt { d := 1, a := 2, b := 3, ty := .f16, rm := 0, gd := un }).wfSub = some 8 ∧
    (Instr.ratom { d := 1, a := 2, b := 4, c := 1, acq := false, rel := false, sc := 0, ty := .f32, gd := un }).wfSub =
      some 8 := by decide +kernel

theorem test_illFormed_fields :
    (Instr.slli { d := 1, a := 2, imm := 64, gd := un }).wfSub = some 2 ∧
    (Instr.fadd { d := 1, a := 2, b := 3, ty := .f32, rm := 5, gd := un }).wfSub = some 2 ∧
    (Instr.fcvt { d := 1, a := 2, ty := .f16, src := .f32, rm := 7, gd := un }).wfSub = some 2 ∧
    (Instr.fcvt { d := 1, a := 2, ty := .f64, src := .f32, rm := 7, gd := un }).wfSub = none ∧
    (Instr.fsgn { d := 1, a := 2, b := 3, sub := 3, ty := .f32, rm := 0, gd := un }).wfSub = some 2 ∧
    (Instr.setvl { d := 1, a := 2, imm := 1, gd := un }).wfSub = some 2 ∧
    (Instr.setvt { d := 1, a := 0, imm := 0x208, gd := un }).wfSub = some 2 ∧
    (Instr.sysw { a := 1, idx := 0x006, gd := un }).wfSub = some 2 ∧
    (Instr.vcmpEq { d := 1, a := 2, b := 3, xb := true, ca := false, cb := true, ty := .i8, gd := un }).wfSub = some 2 ∧
    (Instr.vcvt { d := 1, a := 2, b := 1, sat := false, ca := false, ty := .f32, src := .mx4, rm := 0, gd := un }).wfSub =
      some 2 ∧
    (Instr.vcvt { d := 1, a := 2, b := 0, sat := true, ca := false, ty := .f32, src := .f16, rm := 0, gd := un }).wfSub =
      some 2 ∧
    (Instr.mmaBlock { f := { d := 1, a := 2, b := 8, ca := false, cb := false, w := false, ty := .mx4, rm := 0, gd := un }
                      s := { sa := 1, sb := 2, xba := 3, xbb := 0 } }).wfSub = some 2 ∧
    (Instr.rgnBegin { d := 1, imm := 256 }).wfSub = some 2 ∧
    (Instr.ratom { d := 1, a := 2, b := 4, c := 8, acq := false, rel := false, sc := 0, ty := .i32, gd := un }).wfSub =
      some 2 := by decide +kernel

theorem test_illFormed_scopes : (Instr.fenceAcq { sc := 10 }).wfSub = some 7 ∧ (Instr.fenceAcq { sc := 9 }).wfSub = none ∧
    (Instr.ld { d := 1, a := 2, imm := 0, ty := .i8, acq := false, fr := false, sc := 15, gd := un }).wfSub = some 7 ∧
    (Instr.cpy { d := 1, a := 2, b := 3, c := 4, sand := false, sc := 12, gd := un }).wfSub = some 7 ∧
    (Instr.vgath { d := 1, a := 2, b := 3, cb := false, ty := .mx4, fr := false, sc := 12, gd := un }).wfSub = some 8 := by
  decide +kernel

/-! ### Words written out from R292 to R304

Each word is put together from the field table of R295 or R296, the function code of R303 or R304, the type code of R300
and the modifier of R301. -/

theorem test_decode_integer : decode 0 (bytesOfWords [0x01C61400, 0x00183448]) =
    .ok (.rol { d := 5, a := 6, b := 7, ty := .n16, gd := { g := 2, gn := true } }) 8 := by decide +kernel

theorem test_decode_sel : decode 0 (bytesOfWords [0xF081FC00, 0x00105403]) =
    .ok (.sel { d := 63, a := 1, b := 2, c := 63, ty := .i64, gd := always }) 8 := by decide +kernel

theorem test_decode_immediate : decode 0 (bytesOfWords [0x33C40C40, 0x0000003F]) =
    .ok (.srai { d := 3, a := 4, imm := 63, gd := { g := 15, gn := false } }) 8 := by decide +kernel

theorem test_decode_li64 : decode 16 (bytesOfWords [0x00000446, 0x00000000, 0x89ABCDEF, 0x01234567]) =
    .ok (.liImm64 { d := 1, imm := 0x0123456789ABCDEF#64, gd := always }) 16 := by decide +kernel

theorem test_decode_lpc : decode 0 (bytesOfWords [0x00002448, 0xFFFFFFFE]) =
    .ok (.lpc { d := 9, imm := 0xFFFFFFFE#32, gd := always }) 8 := by decide +kernel

theorem test_decode_fma : decode 0 (bytesOfWords [0x10C20480, 0x06441402]) =
    .ok (.fma { d := 1, a := 2, b := 3, c := 33, ty := .f32, rm := 6, gd := always }) 8 := by decide +kernel

theorem test_decode_fsgn : decode 0 (bytesOfWords [0x01861480, 0x08402000]) =
    .ok (.fsgn { d := 5, a := 6, b := 6, sub := 1, ty := .f64, rm := 0, gd := always }) 8 := by decide +kernel

theorem test_decode_fcvt : decode 0 (bytesOfWords [0x00061480, 0x05483401]) =
    .ok (.fcvt { d := 5, a := 6, ty := .f16, src := .f64, rm := 5, gd := always }) 8 := by decide +kernel

theorem test_decode_jalr : decode 0 (bytesOfWords [0x003EFCC0, 0x00000804]) =
    .ok (.jalr { d := 63, a := 62, gd := { g := 1, gn := false } }) 8 := by decide +kernel

theorem test_decode_branch : decode 0 (bytesOfWords [0x324800C4, 0xFFFFFFFB]) =
    .ok (.blt { a := 8, b := 9, off := 0xFFFFFFFB#32 }) 8 := by decide +kernel

theorem test_decode_bpf : decode 0 (bytesOfWords [0x800F00C4, 0x00000007]) =
    .ok (.bpf { r := 15, off := 7 }) 8 := by decide +kernel

theorem test_decode_call : decode 0 (bytesOfWords [0x0000FCC8, 0x00000010]) =
    .ok (.call { r := 63, off := 16 }) 8 := by decide +kernel

theorem test_decode_load : decode 20 (bytesOfWords [0x00051101, 0x36040000, 0xFFFFFFF8]) =
    .ok (.ld { d := 4, a := 5, imm := 0xFFFFFFF8#32, ty := .i8, acq := true, fr := true, sc := 6, gd := always }) 12 := by decide +kernel

theorem test_decode_stp : decode 0 (bytesOfWords [0x01850105, 0x42000400, 0x00000010]) =
    .ok (.stp { a := 5, b := 6, imm := 16, rel := true, sc := 2, gd := always }) 12 := by decide +kernel

theorem test_decode_fst : decode 0 (bytesOfWords [0x01850109, 0x00440000, 0x00000004]) =
    .ok (.fst { a := 5, b := 6, imm := 4, ty := .f32, sc := 0, gd := always }) 12 := by decide +kernel

theorem test_decode_amocas : decode 0 (bytesOfWords [0x40C20510, 0x641C1400]) =
    .ok (.amocas { d := 1, a := 2, b := 3, c := 4, ty := .n32, acq := true, rel := true, sc := 4, gd := always }) 8 := by decide +kernel

theorem test_decode_fence : decode 0 (bytesOfWords [0x00000140, 0x09000800]) =
    .ok (.fenceFull { sc := 9 }) 8 := by decide +kernel

theorem test_decode_widen : decode 0 (bytesOfWords [0x00070140, 0x05001000]) =
    .ok (.relWiden { a := 7, sc := 5 }) 8 := by decide +kernel

theorem test_decode_sysr : decode 0 (bytesOfWords [0x00001560, 0x00000032]) =
    .ok (.sysr { d := 5, idx := 0x032, gd := always }) 8 := by decide +kernel

theorem test_decode_sysw : decode 0 (bytesOfWords [0x08050160, 0x00000022]) =
    .ok (.syswRb { a := 5, n := 2, gd := always }) 8 := by decide +kernel

theorem test_decode_uret : decode 0 (bytesOfWords [0x00000164, 0x00000400]) =
    .ok (.uret) 8 := by decide +kernel

theorem test_decode_setvl : decode 0 (bytesOfWords [0x00001981, 0x00000000, 0x000000C8]) =
    .ok (.setvl { d := 6, a := 0, imm := 200, gd := always }) 12 := by decide +kernel

theorem test_decode_vector : decode 0 (bytesOfWords [0x00C20584, 0x000C0880]) =
    .ok (.vmul { d := 1, a := 2, b := 3, ca := true, cb := false, ty := .i32, gd := always }) 8 := by decide +kernel

theorem test_decode_vector_scalar : decode 0 (bytesOfWords [0xF0C20588, 0x00145000]) =
    .ok (.vselScalar { d := 1, a := 2, b := 3, c := 15, ca := false, ty := .n8, gd := always }) 8 := by decide +kernel

theorem test_decode_vector_immediate : decode 0 (bytesOfWords [0x0002058D, 0x00085480, 0x00000009]) =
    .ok (.vextImm { d := 1, a := 2, imm := 9, ca := true, ty := .i16, gd := always }) 12 := by decide +kernel

theorem test_decode_vector_float : decode 0 (bytesOfWords [0x40C20590, 0x014C1F80]) =
    .ok (.vfnma { d := 1, a := 2, b := 3, c := 4, ca := true, cb := true, cc := true, ty := .bf16, rm := 1, gd := always }) 8 := by decide +kernel

theorem test_decode_vector_float_scalar : decode 0 (bytesOfWords [0x00C20594, 0x08402800]) =
    .ok (.vfsgnScalar { d := 1, a := 2, b := 3, sub := 1, ca := false, ty := .f64, rm := 0, gd := always }) 8 := by decide +kernel

theorem test_decode_compare : decode 0 (bytesOfWords [0x00C109A0, 0x01440800]) =
    .ok (.vcmpLt { d := 2, a := 1, b := 3, xb := true, ca := false, cb := false, ty := .f32, gd := always }) 8 := by decide +kernel

theorem test_decode_predicate : decode 0 (bytesOfWords [0x00C109A4, 0x00000C00]) =
    .ok (.pandn { d := 2, a := 1, b := 3, gd := always }) 8 := by decide +kernel

theorem test_decode_permute : decode 0 (bytesOfWords [0x00C109B0, 0x001C1C00]) =
    .ok (.vins { d := 2, a := 1, b := 3, ty := .n32, gd := always }) 8 := by decide +kernel

theorem test_decode_reduce : decode 0 (bytesOfWords [0x40C109C0, 0x38442000]) =
    .ok (.vredsMean { d := 2, a := 1, b := 3, c := 4, grp := 7, ca := false, ty := .f32, rm := 0, gd := always }) 8 := by decide +kernel

theorem test_decode_segment : decode 0 (bytesOfWords [0x00C109D0, 0x00180C00]) =
    .ok (.vsredMax { d := 2, a := 1, b := 3, ca := false, ty := .n16, rm := 0, gd := always }) 8 := by decide +kernel

theorem test_decode_convert : decode 0 (bytesOfWords [0x30040DE0, 0x08040000]) =
    .ok (.vcvt { d := 3, a := 4, b := 0, sat := true, ca := false, ty := .i8, src := .i32, rm := 0, gd := always }) 8 := by decide +kernel

theorem test_decode_quantise : decode 0 (bytesOfWords [0x324409E0, 0x05680C01]) =
    .ok (.vquant { d := 2, a := 4, b := 9, ca := false, ty := .fb4, src := .bf16, rm := 5, gd := always }) 8 := by decide +kernel

theorem test_decode_vector_load : decode 0 (bytesOfWords [0x00040681, 0x13440000, 0x00000020]) =
    .ok (.vld { d := 1, a := 4, imm := 32, ty := .f32, fr := true, sc := 3, gd := always }) 12 := by decide +kernel

theorem test_decode_vector_store : decode 0 (bytesOfWords [0x9044028D, 0x00400100, 0x00000000]) =
    .ok (.vsts { a := 4, b := 1, c := 9, imm := 0, cb := true, ty := .f64, sc := 0, gd := always }) 12 := by decide +kernel

theorem test_decode_transposed : decode 0 (bytesOfWords [0x0244229D, 0x00580000, 0x00000000]) =
    .ok (.vldt { d := 8, a := 4, b := 9, imm := 0, ty := .e2m1, fr := false, sc := 0, gd := always }) 12 := by decide +kernel

theorem test_decode_scatter : decode 0 (bytesOfWords [0x51060294, 0x00200200]) =
    .ok (.vscat { a := 6, b := 4, c := 5, cb := false, cc := true, ty := .n64, sc := 0, gd := always }) 8 := by decide +kernel

theorem test_decode_matrix : decode 0 (bytesOfWords [0x0E010EC0, 0x08540C00]) =
    .ok (.mma { d := 3, a := 1, b := 56, ca := false, cb := false, w := true, ty := .e5m2, rm := 0, gd := always }) 8 := by decide +kernel

theorem test_decode_matrix_block : decode 0 (bytesOfWords [0x040206C6, 0x00680000, 0x00185103, 0x00000000]) =
    .ok (.mmaBlock { f := { d := 1, a := 2, b := 16, ca := false, cb := false, w := false, ty := .fb4, rm := 0, gd := always }, s := { sa := 3, sb := 4, xba := 5, xbb := 6 } }) 16 := by decide +kernel

theorem test_decode_chk : decode 0 (bytesOfWords [0x00000304, 0x00000000]) =
    .ok (.chk) 8 := by decide +kernel

theorem test_decode_ind : decode 0 (bytesOfWords [0x00002709, 0x00000000, 0xFFFFFFFF]) =
    .ok (.ind { d := 9, imm := 0xFFFFFFFF#32 }) 12 := by decide +kernel

theorem test_decode_region : decode 0 (bytesOfWords [0x00002721, 0x00000000, 0x000000FF]) =
    .ok (.rgnBegin { d := 9, imm := 255 }) 12 := by decide +kernel

theorem test_decode_keep : decode 0 (bytesOfWords [0x00810324, 0x00000000]) =
    .ok (.rgnKeep { a := 1, b := 2 }) 8 := by decide +kernel

theorem test_decode_send : decode 0 (bytesOfWords [0x40C20740, 0x80000000]) =
    .ok (.send { d := 1, a := 2, b := 3, c := 4, sand := true, gd := always }) 8 := by decide +kernel

theorem test_decode_ratom : decode 0 (bytesOfWords [0x70C20740, 0x21441400]) =
    .ok (.ratom { d := 1, a := 2, b := 3, c := 7, acq := true, rel := false, sc := 1, ty := .f32, gd := always }) 8 := by decide +kernel

theorem test_decode_copy : decode 0 (bytesOfWords [0x40C20760, 0x84000000]) =
    .ok (.cpy { d := 1, a := 2, b := 3, c := 4, sand := true, sc := 4, gd := always }) 8 := by decide +kernel

theorem test_decode_arm : decode 0 (bytesOfWords [0x00020780, 0x00000000]) =
    .ok (.arm { d := 1, a := 2, sc := 0, gd := always }) 8 := by decide +kernel

theorem test_decode_nop : decode 0 (bytesOfWords [0x000000C0, 0x00000040]) =
    .ok (.nop { gd := { g := 0, gn := true } }) 8 := by decide +kernel

/-! ### Scalar instructions: the hypotheses of their statements are met -/

theorem witness_IntegerFunctionsWriteTheirResult : ∃ e ∈ integerRows, ∃ (o : XXX) (s : State), o.ty.isInt = true ∧
    s.active0 o.gd = true ∧ (e.2 o.ty (source o.ty (s.x o.a)) (source o.ty (s.x o.b))).2 = 2 ∧
    (e.2 o.ty (source o.ty (s.x o.a)) (source o.ty (s.x o.b))).2 &&& s.me.tren = 0 :=
  ⟨(.div, quotient), by simp [integerRows], { d := 0, a := 2, b := 3, ty := .n8, gd := un }, t0, by decide +kernel⟩

theorem witness_guard : Ty.i64.isInt = true ∧ t0.active0 un = true ∧ t0.active0 hid = false := by decide +kernel

theorem witness_FloatFunctionsWriteTheirResult : ∃ (o : FXXX) (q : FXX) (r : FXXXX) (s : State), s.active0 o.gd = true ∧
    (fpDiv (scalarRounding s.me o.ty o.rm) (low s o.a o.ty.width) (low s o.b o.ty.width)).fl = 2 ∧
    (fpDiv (scalarRounding s.me o.ty o.rm) (low s o.a o.ty.width) (low s o.b o.ty.width)).fl &&& s.me.tren = 0 ∧
    s.active0 q.gd = true ∧
    (fpSqrt (scalarRounding s.me q.ty q.rm) (low s q.a q.ty.width)).fl &&& s.me.tren = 0 ∧ s.active0 r.gd = true ∧
    (fpFma (scalarRounding s.me r.ty r.rm) false false (low s r.a r.ty.width) (low s r.b r.ty.width)
      (low s r.c r.ty.width)).fl &&& s.me.tren = 0 :=
  ⟨{ d := 1, a := 2, b := 3, ty := .f32, rm := 0, gd := un }, { d := 1, a := 2, ty := .f32, rm := 0, gd := un },
    { d := 1, a := 2, b := 3, c := 2, ty := .f32, rm := 6, gd := un }, on (xs [(2, 0x3F800000)]), by decide +kernel⟩

theorem witness_FloatComparesAndConversionsWriteTheirResult : ∃ (o : FXXX) (c ci ic : FCvt) (s : State),
    s.active0 o.gd = true ∧
    (fpCmp .eq false (fmtOf o.ty) (low s o.a o.ty.width) (low s o.b o.ty.width)).2 &&& s.me.tren = 0 ∧
    (cvtFF { f := fmtOf c.ty, mode := roundingMode s.me.frm c.rm true, fz := false, rnd := s.me.random 0 (low s c.a c.src.width) } (fmtOf c.src)
      (low s c.a c.src.width)).fl &&& s.me.tren = 0 ∧
    (cvtFI ci.ty (roundingMode s.me.frm ci.rm false) ((fmtOf ci.src).value (low s ci.a ci.src.width))).fl &&&
      s.me.tren = 0 ∧
    (cvtIF (scalarRounding s.me ic.ty ic.rm) (source ic.src (s.x ic.a))).fl &&& s.me.tren = 0 :=
  ⟨{ d := 1, a := 2, b := 2, ty := .f32, rm := 0, gd := un }, { d := 1, a := 2, ty := .f16, src := .f32, rm := 0, gd := un },
    { d := 1, a := 2, ty := .i8, src := .f32, rm := 1, gd := un },
    { d := 1, a := 2, ty := .f64, src := .n64, rm := 0, gd := un }, on (xs [(2, 0x3F800000)]), by decide +kernel⟩

theorem witness_RepresentableValuesRoundToThemselves : ∃ neg n d, (1 : Nat) < 2 ^ Ty.e2m1.width ∧
    (fmtOf .e2m1).value 1 = .fin neg n d := ⟨false, 1, 2, by decide +kernel⟩

theorem witness_AnEnabledFlagTrapsAfterTheResult : ∃ e ∈ integerRows, ∃ (o : XXX) (s : State), o.ty.isInt = true ∧
    s.active0 o.gd = true ∧ TrapsNow s ∧
    (e.2 o.ty (source o.ty (s.x o.a)) (source o.ty (s.x o.b))).2 &&& s.me.tren ≠ 0 :=
  ⟨(.div, quotient), by simp [integerRows], { d := 1, a := 2, b := 3, ty := .i32, gd := un }, on { tren := 2 },
    by unfold TrapsNow; decide +kernel⟩

/-! ### Control transfer -/

theorem witness_TransfersGoToTheirTarget : Unforked t0 ∧ Unforked handling ∧ t0.active0 un = true ∧
    (t0.x 1).toNat % 4 = 0 ∧ (15 : Reg).val < 16 := by
  unfold Unforked
  decide +kernel

def live0 : Live := { x := Vector.replicate 64 0, p := Vector.replicate 16 0, vl := 0, vtype := 0x30, frm := 0, tshape := {} }

/-- Chunk `i` of a loop of two chunks of four iterations, whose `fork` stands at `pc0` and whose `chk` 64 bytes on. -/
def chunk (i : Nat) : Chunk := { idx := i, num := BitVec.ofNat 32 i, slot := Fin.ofNat 16 i, kept := live0, actual := i == 0 }
def loop0 : Forked :=
  { f := pc0, e := pc0 + 64, n := 8, k := 4, w := 2, c0 := 0, h := 0, m := 2, snap := live0, inds := [], under := [], seed := 0 }

/-- The thread inside the loop: core 0 runs the first of the chunks, and core 1 the second if it is there. -/
def forked (k : List Chunk) (c : Core) : State :=
  { on c with rings := [(0, { ring0 with forked := some loop0, chunks := k, chunkCtr := 0 })] }

theorem witness_TransfersInAForkedLoopKeepCallDepth :
    (∃ (s : State) (k : Chunk) (g : Forked), s.me.handler = false ∧ s.myChunk = some k ∧ s.myRing.forked = some g ∧ 0 < k.depth ∧
      s.active0 un = true ∧ (s.x 1).toNat % 4 = 0) ∧
    ∃ (s : State) (k : Chunk) (g : Forked), s.me.handler = false ∧ s.myChunk = some k ∧ s.myRing.forked = some g ∧ k.depth = 0 ∧
      InBody g (target s 3) ∧ InBody g (target s 16) ∧ ¬ InBody g (target s 17) ∧ ¬ InBody g (target s 2) ∧
      ¬ InBody g (s.x 1) ∧ s.active0 un = true ∧ (s.x 1).toNat % 4 = 0 :=
  ⟨⟨forked [{ chunk 0 with depth := 1 }] {}, _, loop0, by decide +kernel, rfl, by decide +kernel⟩,
    forked [chunk 0] {}, _, loop0, by decide +kernel, rfl, by unfold InBody; decide +kernel⟩

theorem witness_IllegalWordsAndMisalignedTargetsTrap : 24 ≤ 24 ∧ 0xFFFFFFFE < 2 ^ 32 ∧ 0xFFFFFFFE / 4 % 256 = 0xFF ∧
    0xFFFFFFFE % 4 ≠ 3 ∧ 16 + 4 * (0xFFFFFFFE % 4 + 2) ≤ 32 ∧ t0.me.pc.toNat % 4 = 0 ∧
    ∃ s : State, TrapsNow s ∧ s.active0 un = true ∧ (s.x 1).toNat % 4 ≠ 0 := by
  refine ⟨by decide, by decide, by decide, by decide, by decide, by decide +kernel, on (xs [(1, 2)]), ?_⟩
  unfold TrapsNow
  decide +kernel

/-! ### Memory accesses -/

/-- A thread whose x2 leads to the last byte run of `n` bytes that it may write in its scratchpad. -/
def atEnd (n : Nat) : State := on (xs [(2, pad0 + 0x40000 - BitVec.ofNat 64 n)])

theorem witness_OwnScratchpadAccesses : OnOwnPad (atEnd 8) (address (atEnd 8) 2 0) 8 ∧
    OnOwnPad (atEnd 16) (address (atEnd 16) 2 0) 16 ∧ OnOwnPad (atEnd 1) (address (atEnd 1) 2 0) 1 ∧
    OnOwnPad (atEnd 4) ((atEnd 4).x 2).toNat 4 ∧ Ty.i64.isLoad = true ∧ Ty.f32.isLoad = true ∧ t0.active0 un = true ∧
    (62 : Reg).val + 1 < 64 ∧ Memory.wf (atEnd 8).mem = true := by
  unfold OnOwnPad
  decide +kernel

theorem witness_ScalarAccessesEndAsTheirAccessDoes :
    (∃ v t, (atEnd 8).loadSync (atEnd 8).who (address (atEnd 8) 2 0) 8 true false 5 = .ok v t) ∧
    (∃ f t, t0.loadSync t0.who 0 8 false false 0 = .flt f t ∧ (!t.me.handler && !t.speculative && decide (f.cause < 256)) = true) ∧
    Unhindered (atEnd 8) (address (atEnd 8) 2 0) 8 ∧ Unhindered t0 0 8 ∧ address (atEnd 8) 2 0 % 8 = 0 ∧
    Unhindered (atEnd 16) (address (atEnd 16) 2 0) 16 ∧ t0.inRegion = false ∧ t0.me.oreqs.length < 64 ∧
    (Unhindered (atEnd 8) ((atEnd 8).x 2).toNat 8 ∧ ((atEnd 8).x 2).toNat % 8 = 0 ∧
      (atomicRows.zip atomicCodes).length = atomicRows.length) := by
  refine ⟨ok_of _ (by decide +kernel), flt_of _ _ (by decide +kernel), ?_⟩
  unfold Unhindered
  decide +kernel

theorem witness_ScalarAccessChecksTrap : (∃ s : State, TrapsNow s ∧ s.active0 un = true ∧ s.inRegion = false ∧
      s.me.tstk = 0 ∧ address s 2 0 % 8 ≠ 0 ∧ address s 2 0 % 16 ≠ 0 ∧ (s.x 2).toNat % 4 ≠ 0) ∧
    ∃ s : State, TrapsNow s ∧ s.active0 un = true ∧ s.inRegion = false ∧
      s.touchesIo s.who (address s 2 0) 8 = false ∧ address s 2 0 / 2 ^ 56 ≠ 0xFE ∧ s.me.oreqs.length = 64 := by
  unfold TrapsNow
  exact ⟨⟨on (xs [(2, pad0 + 1)]), by decide +kernel⟩, on { oreqs := List.replicate 64 (0, false) }, by decide +kernel⟩

def region0 : Region :=
  { start := 0, vl := 0, vtype := 0x30, frm := 0, tshape := {}, fflags := 0, levels := [], strip := {}, limit := 1
    retry := 0, unrec := false, snap := none, xd := 1, resume := pc0 }

/-- An access within the io page of an open region, and one whose last byte alone lies in it. -/
def ioRegion (va : Nat) : State := ioMapped { (xs [(2, wd va)]) with regions := [region0] }

theorem witness_ScalarAccessChecksTrap_region : (∃ s : State, TrapsNow s ∧ s.me.regions ≠ []) ∧
    ∀ va ∈ [bootVa, bootVa - 7], TrapsNow (ioRegion va) ∧ (ioRegion va).me.regions ≠ [] ∧
      (ioRegion va).touchesIo (ioRegion va).who (address (ioRegion va) 2 0) 8 = true := by
  unfold TrapsNow
  exact ⟨⟨on { regions := [region0] }, by decide +kernel⟩, by decide +kernel⟩

/-! ### Synchronisation and system registers -/

def tag0 : RelTag := { key := 1, ring := 0, scope := 1, line := 0 }

/-- The line at `bootVa` has a release tag that ring 0 set. -/
def tagged : State := { mapped (xs [(2, wd bootVa)]) with dirs := [((bootTables + 0x10000) / 128, { tag := some tag0 })] }

/-- The chunk of core 1 runs behind that of core 0. -/
def speculating : State := { forked [chunk 0, chunk 1] {} with cur := 1 }

/-- Bytes wait for the host to give up a half of a line. -/
def backing : State := { t0 with backs := [{ ln := 0, half := 0, key := 0, mask := 1, full := 0, data := 0 }] }

theorem witness_FencesActOnSoftLinesAndReleaseTags : (Synchronises t0 ∧ t0.unacked t0.cur 1 = false ∧ t0.backs = [] ∧
      (t0.softBackAll t0.cur).backs = [] ∧ (t0.softAcquire t0.cur).backs = [] ∧ t0.myRing.forked = none) ∧
    (speculating.me.handler = false ∧ speculating.speculative = true ∧ speculating.inRegion = false) ∧
    (Synchronises (carrying [pkt0] t0) ∧ (carrying [pkt0] t0).unacked 0 1 = true) ∧
    (Synchronises backing ∧ (backing.softBackAll backing.cur).backs ≠ [] ∧ (backing.softAcquire backing.cur).backs ≠ []) ∧
    ∃ (t : State) (p : Place) (a : At) (g : RelTag), tagged.me.handler = false ∧ Synchronises tagged ∧
      tagged.place tagged.who 0 (tagged.x 2).toNat 1 = (t, .ok p) ∧ (∀ x, p ≠ .held x) ∧ t.myChunk = none ∧
      t.me.softDirty = false ∧ t.unacked t.cur 2 = false ∧ t.backs = [] ∧ t.syncLine t.who (tagged.x 2).toNat = some a ∧
      t.line a.core a.ln = none ∧ (t.dir a.ln).tag = some g ∧ g.key = t.key ∧ g.ring = t.cur / 16 ∧ g.scope < 2 := by
  unfold Synchronises
  refine ⟨by decide +kernel, by decide +kernel, by decide +kernel, by decide +kernel,
    (tagged.place tagged.who 0 (tagged.x 2).toNat 1).1,
    .mem { core := 0, key := 1, cls := 0, cfmt := 0, tier := 0, pa := bootTables + 0x10000, va := bootVa },
    { core := 0, key := 1, cls := 0, cfmt := 0, tier := 0, pa := bootTables + 0x10000, va := bootVa }, tag0, ?_⟩
  refine ⟨by decide +kernel, by decide +kernel, ?_, by simp, ?_⟩
  · apply Prod.ext
    · rfl
    · have h : (match (tagged.place tagged.who 0 (tagged.x 2).toNat 1).2 with
        | .ok p => p == .mem { core := 0, key := 1, cls := 0, cfmt := 0, tier := 0, pa := bootTables + 0x10000, va := bootVa }
        | .error _ => false) = true := by decide +kernel
      revert h
      cases (tagged.place tagged.who 0 (tagged.x 2).toNat 1).2 <;> simp
  · decide +kernel

theorem witness_SsyncArrivesOnceAndWaits : (t0.me.handler = false ∧ Synchronises t0 ∧ t0.me.softLines = [] ∧
      t0.myRing.thread = some th0 ∧ th0.arrived = none) ∧ (TrapsNow t0 ∧ ¬ (3 ≤ 2 ∧ 2 ≤ 5) ∧ ¬ (3 ≤ 6 ∧ 6 ≤ 5)) ∧
    (handling.me.handler = true ∧ handling.myRing.thread = some th0) ∧
    ∃ s : State, TrapsNow s ∧ s.me.regions = [] ∧ s.me.tstk.getLsbD 0 = true := by
  unfold Synchronises TrapsNow
  exact ⟨by decide +kernel, by decide +kernel, by decide +kernel, on { tstk := 1 }, by decide +kernel⟩

theorem witness_SystemRegisterReadsReturnTheirValue : t0.active0 un = true ∧ t0.myChunk = none ∧
    handling.active0 un = true ∧ handling.me.handler = true ∧ TrapsNow t0 ∧ Uncaptured t0 ∧
    ∀ i ∈ [0x007, 0x013, 0x017, 0x01D, 0x01F, 0x027, 0x02C, 0x02F, 0x033, 0x037, 0x042, 0x07F, 0x085, 0xFFF], NoRegister i := by
  unfold TrapsNow NoRegister Uncaptured
  exact ⟨by decide +kernel, by decide +kernel, by decide +kernel, by decide +kernel, by decide +kernel,
    every (a := th0) (by decide +kernel) (by decide +kernel), by decide⟩

theorem witness_SystemRegisterWritesStoreTheirFields : t0.active0 un = true ∧ t0.inRegion = false ∧ t0.myChunk = none ∧
    0x041 ∈ readOnlyIndices ∧ Uncaptured t0 ∧ handling.active0 un = true ∧ handling.me.handler = true ∧ TrapsNow t0 ∧
    (∀ i ∈ [0x007, 0x085], NoRegister i) ∧ ∀ e ∈ handlerWriteRows, e.1 < 4096 := by
  unfold TrapsNow NoRegister Uncaptured
  exact ⟨by decide +kernel, by decide +kernel, by decide +kernel, by decide, every (a := th0) (by decide +kernel) (by decide +kernel),
    by decide +kernel, by decide +kernel, by decide +kernel, by decide, by simp [handlerWriteRows]⟩

theorem witness_ReturnsFromHandlersGoToTheSavedAddress : handling.me.handler = true ∧ handling.me.tepc.toNat % 4 = 0 ∧
    handling.myRing.forked = none ∧ handling.myRing.thread = some th0 ∧ t0.me.handler = false ∧ t0.me.uepc.toNat % 4 = 0 ∧
    TrapsNow t0 := by
  unfold TrapsNow
  decide +kernel

/-! ### Vectors -/

theorem witness_VectorConfigurationAndStripLoops : t0.active0 un = true ∧ 0 < (1 : BitVec 32).toInt ∧
    (0 : BitVec 32).toInt ≤ 0 ∧ TrapsNow t0 ∧ (t0.x 1).toNat = 0 ∧ ((on (xs [(1, 1)])).x 1).toNat ≠ 0 ∧
    t0.me.strip.act = false ∧ (∃ s : State, s.me.strip.act = true ∧ s.me.strip.rem - s.me.strip.slen = 0) ∧
    ∃ s : State, s.me.strip.act = true ∧ s.me.strip.rem - s.me.strip.slen ≠ 0 := by
  unfold TrapsNow
  refine ⟨by decide +kernel, by decide, by decide, by decide +kernel, by decide +kernel, by decide +kernel,
    by decide +kernel, ⟨on { strip := { act := true, rem := 3, slen := 3 } }, by decide +kernel⟩,
    on { strip := { act := true, rem := 4, slen := 3 } }, by decide +kernel⟩

theorem witness_VectorIntegerFunctionsWriteActiveElements : Ty.i64.isInt = true ∧ Ty.i64.width = vec8.me.ew ∧
    flagsOver vec8.me un (fun i => (elementResult quotient .i64 (valueIn .i64 (element (vec8.me.v.get 1) 64 i)) 0).fl) = 2 ∧
    flagsOver vec8.me un (fun i => (elementResult quotient .i64 (valueIn .i64 (element (vec8.me.v.get 1) 64 i)) 0).fl) &&&
      vec8.me.tren = 0 := by decide +kernel

theorem witness_VectorSelectCopiesByPredicate : (15 : Fin 64).val < 16 ∧ 16 ≤ (16 : Fin 64).val ∧ TrapsNow vec8 ∧
    Ty.f64.width = vec8.me.ew ∧ flagsOver vec8.me un (fun _ => 0) &&& vec8.me.tren = 0 := by
  unfold TrapsNow
  decide +kernel

theorem witness_VectorFloatFunctionsWriteActiveElements : Ty.f64.width = vec8.me.ew ∧
    flagsOver vec8.me un (fun i => (fpDiv (vectorRounding vec8.me .f64 0) (element (vec8.me.v.get 1) 64 i) 0).fl) &&&
      vec8.me.tren = 0 ∧
    flagsOver vec8.me un (fun i => (fpFma (vectorRounding vec8.me .f64 1) true false (element (vec8.me.v.get 1) 64 i) 0
      0).fl) &&& vec8.me.tren = 0 ∧
    flagsOver vec8.me un (fun i => (fpSqrt (vectorRounding vec8.me .f64 0) (element (vec8.me.v.get 1) 64 i)).fl) &&&
      vec8.me.tren = 0 := by decide +kernel

theorem witness_ComparesAndPredicatesWriteActiveBits : (15 : Fin 64).val < 16 ∧ Ty.n64.width = vec8.me.ew ∧
    Ty.f64.width = vec8.me.ew ∧
    flagsOver vec8.me un (fun i => (fpCmp .lt false (fmtOf .f64) (element (vec8.me.v.get 1) 64 i) 0).2) &&&
      vec8.me.tren = 0 := by decide +kernel

theorem witness_PermutesMoveElements : Ty.n64.width = vec8.me.ew ∧ flagsOver vec8.me un (fun _ => 0) &&& vec8.me.tren = 0 := by
  decide +kernel

theorem witness_ReductionsFollowTheirOrder : (∃ s : State, Ty.n8.width = s.me.ew ∧ s.me.vl ≤ 2 ^ 9 ∧ 9 ≤ 10 ∧
      2 ^ (9 - 1) < s.me.vl ∧ s.me.tren = 0) ∧ Ty.f64.width = t0.me.ew ∧ t0.me.vl ≤ 2 ^ 0 ∧ t0.me.tren = 0 :=
  ⟨⟨on { vl := 512, vtype := 0 }, by decide +kernel⟩, by decide +kernel⟩

theorem witness_RescaledReductionsUseValidElements : Ty.f64.width = vec8.me.ew ∧ vec8.me.tren = 0 ∧
    (activeList vec8.me un).filter (fun i => (vec8.x 1).getLsbD (8 * 7 + 64 * i / 512)) = [] ∧
    ∃ s : State, Ty.f64.width = s.me.ew ∧ s.me.tren = 0 ∧
      (activeList s.me un).filter (fun i => (s.x 1).getLsbD (8 * 7 + 64 * i / 512)) ≠ [] :=
  ⟨by decide +kernel, by decide +kernel, by decide +kernel,
    on { (xs [(1, 0x8000000000000000 + 2 ^ 56)]) with vl := 9 }, by decide +kernel⟩

theorem witness_SegmentedInstructionsRestartAtFlags : (15 : Fin 64).val < 16 ∧ Ty.n64.width = vec8.me.ew ∧ vec8.me.tren = 0 := by
  decide +kernel

theorem witness_VectorConversionsWriteActiveElements : max Ty.mx4.width Ty.f64.width = vec8.me.ew ∧
    max Ty.f64.width Ty.n8.width = vec8.me.ew ∧ (62 : Reg).val % 2 = 0 ∧ (62 : Reg).val + 1 < 64 ∧ vec8.me.tren = 0 ∧
    ∃ s : State, max Ty.mx8.width Ty.f32.width = s.me.ew ∧ s.me.vl * Ty.f32.width ≤ 4096 ∧ 4 ≤ Ty.mx8.width ∧
      Ty.mx8.width ≤ Ty.f32.width ∧ s.me.tren = 0 := by
  refine ⟨by decide +kernel, by decide +kernel, by decide, by decide, by decide +kernel, on { vl := 128, vtype := 0x20 }, ?_⟩
  decide +kernel

/-- A thread whose `vl` elements of 64 bits lie at the end of what it may write in its scratchpad. -/
def vecEnd : State := on { (xs [(2, pad0 + 0x3FFC0), (3, 8)]) with vl := 8 }

theorem witness_VectorLoadsAndStores : Ty.n64.width = vecEnd.me.ew ∧ 8 ≤ Ty.n64.width ∧ vecEnd.me.vcm = 0 ∧
    Memory.wf vecEnd.mem = true ∧ vecEnd.me.tren = 0 ∧
    (∀ j < vecEnd.me.vl, OnOwnPad vecEnd (stridedAddress (vecEnd.x 2) (BitVec.ofNat 64 8) j) 8) ∧
    (∀ j < vecEnd.me.vl, OnOwnPad vecEnd (indexedAddress vecEnd 2 0 64 j) 8) ∧
    (∀ j < 128, ∀ m < 32 / 8, OnOwnPad vecEnd (stridedAddress (vecEnd.x 2 - 0x1000) (vecEnd.x 3 * 4) j + 8 * m) 8) := by
  unfold OnOwnPad
  exact ⟨by decide +kernel, by decide, by decide +kernel, by decide +kernel, by decide +kernel, by decide +kernel,
    by decide +kernel, by decide +kernel⟩

/-- Element 0 of this gather lies past the scratchpad, the other seven within it. -/
def gatherPast : State :=
  on { (xs [(2, pad0)]) with vl := 2, v := (Vector.replicate 64 0).set 1 0x60000 }

theorem witness_VectorTrapsKeepTheElementsDone : (TrapsNow vec8 ∧ Ty.n32.width ≠ vec8.me.ew) ∧
    (∃ s : State, TrapsNow s ∧ Ty.i64.isInt = true ∧ Ty.i64.width = s.me.ew ∧
      flagsOver s.me un (fun i => (elementResult quotient .i64 (valueIn .i64 (element (s.me.v.get 1) 64 i)) 0).fl) &&&
        s.me.tren ≠ 0) ∧
    (TrapsNow gatherPast ∧ Ty.n64.width = gatherPast.me.ew ∧ gatherPast.me.vcm = 0 ∧
      (Table.get gatherPast.frq (gatherPast.cur / 128) {}).en = false ∧ gatherPast.cur < 4096 ∧
      gatherPast.me.regions = [] ∧ gatherPast.myRing.chunks = [] ∧ gatherPast.me.vl = 2 ∧
      indexedAddress gatherPast 2 1 64 0 / 2 ^ 32 = 0xFE * 2 ^ 24 + gatherPast.cur ∧
      indexedAddress gatherPast 2 1 64 0 % 8 = 0 ∧ 0x60000 < indexedAddress gatherPast 2 1 64 0 % 2 ^ 32 + 8 ∧
      OnOwnPad gatherPast (indexedAddress gatherPast 2 1 64 1) 8) := by
  unfold OnOwnPad TrapsNow
  exact ⟨by decide +kernel, ⟨on { vl := 8, tren := 2 }, by decide +kernel⟩, by decide +kernel⟩

/-! ### Matrix -/

theorem witness_SlabsAreExclusiveWithinAQuad : t0.active0 un = true ∧ t0.myChunk = none ∧ ShapeLegal t0.me ∧
    (∃ s : State, s.active0 un = true ∧ s.myChunk = none ∧ (s.x 1).toNat = 8) ∧
    ∃ s : State, TrapsNow s ∧ 8 < (s.x 1).toNat := by
  unfold TrapsNow ShapeLegal
  exact ⟨by decide +kernel, by decide +kernel, by decide +kernel, ⟨on (xs [(1, 8)]), by decide +kernel⟩,
    on (xs [(1, 9)]), by decide +kernel⟩

/-- A core that holds one slab. -/
def oneSlab : State := on { (xs [(2, pad0), (3, 1024)]) with mreq := 1, mslabs := 1 }

theorem witness_MatrixProductsAccumulateIntoTiles : 0 < oneSlab.me.slabs ∧ ShapeLegal oneSlab.me ∧ oneSlab.me.tren = 0 ∧
    oneSlab.me.tpAct = false ∧ (∃ r < 16, RowActive oneSlab.me un r) ∧ (∀ r < 16, ¬ RowActive oneSlab.me hid r) ∧
    (∀ q : Fin 8, (0 : BitVec 32768).extractLsb' (4096 * q.val) 4096 = oneSlab.me.v.get (Fin.ofNat 64 (56 + q.val))) ∧
    (∀ k < 256 / 64, SpanOnPad oneSlab (stridedAddress (oneSlab.x 2) (oneSlab.x 3) k) (16 * 64) ∧
      ((0 : BitVec 32768).extractLsb' (128 * 64 * k) (128 * 64)).toNat =
        Memory.readN oneSlab.mem (stridedAddress (oneSlab.x 2) (oneSlab.x 3) k) (16 * 64)) ∧
    TrapsNow t0 ∧ t0.me.mslabs = 0 ∧
    ∃ s : State, 0 < s.me.slabs ∧ (∀ r < 16, ¬ RowActive s.me hid r) ∧ s.me.tpAct = true := by
  unfold TrapsNow ShapeLegal RowActive SpanOnPad
  exact ⟨by decide +kernel, by decide +kernel, by decide +kernel, by decide +kernel, ⟨15, by decide, by decide +kernel⟩,
    by decide +kernel, by decide +kernel, by decide +kernel, by decide +kernel, by decide +kernel,
    on { mreq := 1, mslabs := 1, tpAct := true }, by decide +kernel⟩

theorem witness_TileMovesCarryTheirRows : oneSlab.me.tpAct = false ∧ ShapeLegal oneSlab.me ∧
    (∀ r < 16, SpanOnPad oneSlab (stridedAddress (oneSlab.x 2) (oneSlab.x 3) r) (8 * oneSlab.me.tshape.cols)) ∧
    oneSlab.active0 un = true ∧ (∃ s : State, s.active0 un = true ∧ (s.x 4).toNat = 15) ∧ (62 : Reg).val + 1 < 64 := by
  unfold ShapeLegal SpanOnPad
  exact ⟨by decide +kernel, by decide +kernel, by decide +kernel, by decide +kernel, ⟨on (xs [(4, 15)]), by decide +kernel⟩,
    by decide⟩
/-! ### Speculation and recovery -/

/-- `fork x7` of R414: chunks of 4 iterations, 16 wide, its `chk` ten words on. -/
def forkOp : ForkF := { a := 7, imm := 0x004F000A#32 }
def level0 : Level := { f := pc0, e := pc0, n := 2, k := 1, iter := 0, forked := false, seed := 0 }

theorem witness_ForksStartTheirLoop : 0 < chunkSize forkOp ∧ 0 < latchOffset forkOp ∧
    (t0.me.handler = false ∧ t0.me.levels.length < 4 ∧ RunsAlone t0 forkOp ∧ (t0.x 7).toNat = 0) ∧
    (∃ s : State, s.me.handler = false ∧ s.me.levels.length = 3 ∧ RunsAlone s forkOp ∧ (s.x 7).toNat = 4) ∧
    (∃ s : State, s.me.handler = false ∧ s.me.levels.length < 4 ∧ ¬ RunsAlone s forkOp ∧ effectiveWidth s forkOp = 2) ∧
    (∃ s : State, TrapsNow s ∧ 4 ≤ s.me.levels.length) ∧ TrapsNow t0 ∧ chunkSize { a := 7, imm := 0x000F000A#32 } = 0 ∧
    latchOffset { a := 7, imm := 0x004F0000#32 } = 0 := by
  unfold TrapsNow RunsAlone
  exact ⟨by decide +kernel, by decide +kernel, by decide +kernel,
    ⟨on { (xs [(7, 4)]) with levels := List.replicate 3 level0 }, by decide +kernel⟩,
    ⟨on (xs [(7, 5)]), by decide +kernel⟩, ⟨on { levels := List.replicate 4 level0 }, by decide +kernel⟩,
    by decide +kernel, by decide +kernel, by decide +kernel⟩

/-- A state whose chunk, the last of its loop, runs behind another chunk. -/
def younger : State := forked [{ chunk 0 with slot := 15 }, { chunk 1 with slot := 0 }] {}

theorem witness_LoopInstructionsKeepTheirLevels : (t0.me.handler = false ∧ t0.me.levels = []) ∧
    (TrapsNow (on { levels := [{ level0 with e := 0 }] }) ∧ { level0 with e := 0 }.e ≠ t0.me.pc) ∧
    (∃ (s : State) (l : Level), s.me.handler = false ∧ s.me.levels = [l] ∧ l.e = s.me.pc ∧ l.forked = false ∧
      l.iter + 1 < l.n) ∧
    (∃ (s : State) (l : Level), s.me.handler = false ∧ s.me.levels = [l] ∧ l.e = s.me.pc ∧ l.forked = false ∧
      l.n = l.iter + 1) ∧
    (∀ done ∈ [2, 3], ∃ (s : State) (l : Level) (k : Chunk), s.me.handler = false ∧ s.me.levels = [l] ∧ l.e = s.me.pc ∧
      l.forked = true ∧ s.myRing.forked = some loop0 ∧ s.myChunk = some k ∧ k.done = done ∧
      min loop0.k (loop0.n - k.idx * loop0.k) = 4) ∧
    (t0.me.handler = false ∧ t0.myChunk = none ∧ t0.speculative = false) ∧
    ((forked [chunk 0] {}).myChunk = some (chunk 0) ∧ (forked [chunk 0] {}).speculative = false ∧
      (forked [chunk 0] {}).me.sbuf = []) ∧
    younger.me.handler = false ∧ younger.myChunk = some { chunk 1 with slot := 0 } ∧ younger.speculative = true ∧
    TrapsNow t0 := by
  unfold TrapsNow
  refine ⟨by decide +kernel, by decide +kernel, ⟨on { levels := [level0] }, level0, by decide +kernel⟩,
    ⟨on { levels := [{ level0 with iter := 1 }] }, { level0 with iter := 1 }, by decide +kernel⟩, ?_,
    by decide +kernel, by decide +kernel, by decide +kernel, by decide +kernel, by decide +kernel, by decide +kernel⟩
  intro d h
  simp only [List.mem_cons, List.not_mem_nil, or_false] at h
  rcases h with rfl | rfl
  · exact ⟨forked [{ chunk 0 with done := 2 }] { levels := [{ level0 with forked := true }] }, { level0 with forked := true },
      { chunk 0 with done := 2 }, by decide +kernel⟩
  · exact ⟨forked [{ chunk 0 with done := 3 }] { levels := [{ level0 with forked := true }] }, { level0 with forked := true },
      { chunk 0 with done := 3 }, by decide +kernel⟩

/-- A region is open and its log enabled, with a tail. -/
def logging (tail : Nat) : State :=
  on { (xs [(1, 2)]) with regions := [region0], logEn := true, logTail := tail }

theorem witness_RegionsOpenKeepAndClose :
    (∃ s : State, s.me.handler = false ∧ s.myChunk = none ∧ s.me.regions.length = 3) ∧
    ((logging 0).me.handler = false ∧ (logging 0).me.regions = region0 :: [] ∧ (logging 0).me.regions.length = 1 ∧
      (∀ e ∈ (logging 0).me.l1, ∀ d ∈ [1], e.2.st ≠ .g d)) ∧
    (∃ s : State, s.me.handler = false ∧ 1 < s.me.regions.length) ∧
    (((logging 0).x 0 &&& 0xFFFFFFFFFFFFFFFE) = 0 ∧ (logging 0).x 0 = 0) ∧
    (∃ s : State, s.me.regions = region0 :: [] ∧ (s.x 1 &&& 0xFFFFFFFFFFFFFFFE) = 2 ∧ s.me.logEn = false) ∧
    (((logging 4094).x 1 &&& 0xFFFFFFFFFFFFFFFE) = 2 ∧ (logging 4094).me.logEn = true ∧
      (logging 4094).me.logOvf = false ∧ 4096 < (logging 4094).me.logTail + (2 + 1)) ∧
    (((logging 4093).x 1 &&& 0xFFFFFFFFFFFFFFFE) = 2 ∧ (logging 4093).me.logEn = true ∧
      (logging 4093).me.logOvf = false ∧ (logging 4093).me.logTail + (2 + 1) ≤ 4096 ∧ Memory.wf (logging 4093).mem = true) ∧
    (∃ s : State, TrapsNow s ∧ 4 ≤ s.me.regions.length) ∧ TrapsNow t0 ∧ t0.me.regions = [] := by
  unfold TrapsNow
  exact ⟨⟨on { regions := List.replicate 3 region0 }, by decide +kernel⟩, by decide +kernel,
    ⟨on { regions := List.replicate 2 region0 }, by decide +kernel⟩, by decide +kernel,
    ⟨on { (xs [(1, 2)]) with regions := [region0] }, by decide +kernel⟩, by decide +kernel, by decide +kernel,
    ⟨on { regions := List.replicate 4 region0 }, by decide +kernel⟩, by decide +kernel, by decide +kernel⟩

/-! ### Messages, copies and queues -/

/-- A thread that may send `len` bytes of its scratchpad to buffer 3 of core 1, of a device. -/
def sender (dev len : Nat) : State :=
  let s := on (xs [(1, pad0 + BitVec.ofNat 64 (dev * 2 ^ 44) + 0x100000003), (2, pad0), (3, BitVec.ofNat 64 len)])
  { s with fab := { s.fab with lmtN := [(0, 0x8000000000000001)] } }

def sendOp : SendF := { d := 4, a := 1, b := 2, c := 3, sand := false, gd := un }

/-- The same message for device 4095, to which one UALink port leads. -/
def sendingAway : State :=
  { sender 4095 16 with fab := { (sender 4095 16).fab with drt := [(4095, 0x8000000000000000 + 2 ^ 47)] } }

theorem witness_sendingAway : Plain sendingAway ∧ MaySend sendingAway ∧ sendingAway.backs = [] ∧ sendingAway.fab.devidAct = 0 ∧
    ∃ u, sendingAway.portFor sendingAway.cur 4095 (sendingAway.x 1).toNat = some u := by
  unfold Plain MaySend State.portFor
  exact ⟨by decide +kernel, by decide +kernel, by decide +kernel, by decide +kernel,
    23, port_of _ _ _ _ 23 (by decide +kernel) (by decide +kernel)⟩

theorem witness_MessagesAreSent : (Plain (sender 0 4096) ∧ (sender 0 4096).active0 un = true ∧
      MessageWords (sender 0 4096) sendOp 4096 ∧ MaySend (sender 0 4096) ∧ SpanOnPad (sender 0 4096) pad0.toNat 4096) ∧
    MessageWords (sender 0 16) sendOp 16 ∧ (sendOp.b.val % 2 = 0 ∧ sendOp.b.val + 1 < 64) ∧
    (TrapsNow t0 ∧ (t0.x 1).toNat / 2 ^ 56 ≠ 0xFE) ∧ (sendOp.sc = 0 ∧ { sendOp with sc := 1 }.sc ≠ 0) ∧
    (∃ s : State, TrapsNow s ∧ MessageWords s sendOp 16 ∧ s.me.regions ≠ []) ∧
    Plain (sender 4095 16) ∧ ((sender 4095 16).x 1).toNat / 2 ^ 56 = 0xFE ∧
    ((sender 4095 16).x 1).toNat / 4 % 2 ^ 30 = 0 ∧ ((sender 4095 16).x 3).toNat / 2 ^ 13 = 0 ∧
    ((sender 4095 16).x 1).toNat / 2 ^ 44 % 4096 = 4095 ∧ (sender 4095 16).fab.devidAct = 0 ∧
    (Table.get (sender 4095 16).fab.drt 4095 0).getLsbD 63 = false := by
  unfold Plain MessageWords MaySend SpanOnPad TrapsNow
  exact ⟨by decide +kernel, by decide +kernel, by decide +kernel, by decide +kernel, by decide,
    ⟨on { (xs [(1, pad0 + 0x100000003), (2, pad0), (3, 16)]) with regions := [region0] }, by decide +kernel⟩,
    by decide +kernel, by decide +kernel, by decide +kernel, by decide +kernel, by decide +kernel, by decide +kernel,
    by decide +kernel⟩

/-- A receive buffer with 128 bytes in it. -/
def rbFull : Rb := { tail := 128, head := 0, lsz := 0, base := 0, en := true }
def receiving (b : Rb) : State := on { rb := Vector.replicate 4 b }

/-- The same under a capture whose buffer at address `2^40` has room for one record. -/
def captured : State :=
  { receiving rbFull with
    jobs := [(0, { st := .open_, key := 1, recs := [(0, { st := .running, cap := { mode := 1, base := 2 ^ 40, size := 32 } })] })] }

theorem witness_MessagesAreReceived : (Plain (receiving rbFull) ∧ (receiving rbFull).active0 un = true ∧
      (3 : Fin 64).val < 4 ∧ rbFull.tail ≠ rbFull.head ∧ occupied rbFull ≠ 0 ∧ (receiving rbFull).me.sbuf = []) ∧
    Uncaptured (receiving rbFull) ∧
    (∃ b : Rb, Plain (receiving b) ∧ b.en = true ∧ b.tail = b.head ∧ occupied b = 0) ∧
    (Plain captured ∧ captured.myRing.thread = some th0 ∧ (captured.recd 0 0).cap.mode = 1 ∧
      (captured.recd 0 0).cap.stopped = false ∧ (captured.recd 0 0).cap.used + 32 = (captured.recd 0 0).cap.size ∧
      Memory.wf captured.mem = true) ∧
    TrapsNow t0 ∧ 4 ≤ (4 : Fin 64).val ∧ (t0.me.rb.get (3 : Fin 4)).en = false := by
  unfold Plain TrapsNow Uncaptured
  exact ⟨by decide +kernel, every (a := th0) (by decide +kernel) (by decide +kernel),
    ⟨{ rbFull with head := 128 }, by decide +kernel⟩, by decide +kernel, by decide +kernel, by decide, by decide +kernel⟩

/-- A thread whose x1 leads to the scratchpad of core `d`, and one whose x1 leads to the last word of that of core 1 of device 4095, with a
route to it or none. -/
def atCore (d : Nat) : State :=
  let s := on (xs [(1, pad0 + BitVec.ofNat 64 (d * 2 ^ 32))])
  { s with fab := { s.fab with lmtN := [(0, 0x8000000000000001)] } }

def atDevice (routed : Bool) : State :=
  let s := on (xs [(1, pad0 + BitVec.ofNat 64 (4095 * 2 ^ 44 + 2 ^ 32 + 0x3FFF8))])
  { s with fab := { s.fab with lmtN := [(0, 0x8000000000000001)], drt := if routed then [(4095, 0x8000000000000000 + 2 ^ 47)] else [] } }

/-- The answer to an atomic of core 0 on another device has come. -/
def atomOp : RatomF := { d := 1, a := 2, b := 4, c := 0, acq := false, rel := false, sc := 0, ty := .i64, gd := un }
def atomPkt : Pkt :=
  { pkt0 with kind := 3, phase := .acked, reply := some { kind := 4, mask := 0, data := [7] }, away := some (4095, 23) }
def atomAnswered : State := carrying [atomPkt] (on { wait := .remote 5 atomOp pad0.toNat })

theorem witness_RemoteAtomicsActOnce : Plain (atEnd 4) ∧ (atEnd 4).active0 un = true ∧
    OnOwnPad (atEnd 4) ((atEnd 4).x 2).toNat 4 ∧ Ty.i32.isInt = true ∧ (62 : Reg).val % 2 = 0 ∧ TrapsNow t0 ∧
    (∃ s : State, Plain s ∧ TrapsNow s ∧ (s.x 2).toNat % 4 ≠ 0) ∧
    (Plain (atCore 1) ∧ (atCore 1).cur < 4096 ∧ (1 : Fin 4096).val ≠ (atCore 1).cur ∧ OnPadOf 1 ((atCore 1).x 1).toNat 8 ∧
      Reaches (atCore 1) 1 ∧ ((atCore 1).ring ((1 : Fin 4096).val / 16)).chunks = []) ∧
    (Plain (atDevice true) ∧ ((atDevice true).x 1).toNat / 2 ^ 56 = 0xFE ∧ ((atDevice true).x 1).toNat % 8 = 0 ∧
      ((atDevice true).x 1).toNat % 2 ^ 32 + 8 = 0x40000 ∧ ((atDevice true).x 1).toNat / 2 ^ 44 % 4096 = 4095 ∧
      (atDevice true).fab.devidAct = 0 ∧ (atDevice true).memberN (nodeOf (atDevice true).cur) (atDevice true).key = true ∧
      (atDevice true).me.oreqs.length < 64 ∧
      (atDevice true).portFor (atDevice true).cur 4095 ((atDevice true).x 1).toNat = some 23) ∧
    (Table.get (atDevice false).fab.drt 4095 0).getLsbD 63 = false ∧
    (atomAnswered.pkt atomPkt.pid = some atomPkt ∧ atomPkt.phase = .acked ∧ atomAnswered.answering atomPkt.pid = false ∧
      atomPkt.reply = some { kind := 4, mask := 0, data := [7] } ∧ atomPkt.kind = 3 ∧ atomPkt.origin = none ∧
      atomPkt.hart = none ∧ atomPkt.leg = false ∧ atomPkt.away.isSome = true ∧ atomPkt.score = (0 : Fin 4096).val ∧
      (atomAnswered.core (0 : Fin 4096).val).wait = .remote atomPkt.pid atomOp pad0.toNat ∧
      ∀ th, (atomAnswered.ring ((0 : Fin 4096).val / 16)).thread = some th → (atomAnswered.recd th.job th.record).cap.mode = 0) := by
  unfold Plain OnOwnPad TrapsNow OnPadOf Reaches
  refine ⟨by decide +kernel, by decide +kernel, by decide +kernel, by decide, by decide, by decide +kernel,
    ⟨on (xs [(2, pad0 + 2)]), by decide +kernel⟩, ⟨by decide +kernel, by decide +kernel, by decide, by decide +kernel,
      .inr ⟨by decide +kernel, by decide +kernel, by decide +kernel, every_of_none (by decide +kernel)⟩, by decide +kernel⟩,
    ⟨by decide +kernel, by decide +kernel, by decide +kernel, by decide +kernel, by decide +kernel, by decide +kernel, by decide +kernel,
      by decide +kernel, port_of _ _ _ _ 23 (by decide +kernel) (by decide +kernel)⟩, by decide +kernel,
    by decide +kernel, by decide +kernel, by decide +kernel, by decide +kernel, by decide +kernel, by decide +kernel, by decide +kernel,
    by decide +kernel, by decide +kernel, by decide +kernel, by decide +kernel, every (a := th0) (by decide +kernel) (by decide +kernel)⟩

/-- Copy words: length, fold and operation; a count word may follow in the next register. -/
def copier (l : Nat) : State := on (xs [(1, pad0), (2, pad0 + 0x100), (4, BitVec.ofNat 64 l)])

theorem witness_CopiesAndPrefetchesAreHandedOver :
    (∀ l ∈ [0xFFFFFFFF, 4 * 2 ^ 37 + 5 * 2 ^ 40 + 8],
      Plain (copier l) ∧ (copier l).active0 un = true ∧ ((copier l).x 4).toNat / 2 ^ 37 % 8 < 5 ∧
      ((copier l).x 4).toNat / 2 ^ 43 % 32 = 0 ∧ ((copier l).x 4).toNat / 2 ^ 32 % 32 = 0 ∧
      ((copier l).x 5).toNat % 8 = 0 ∧
      (((copier l).x 4).toNat / 2 ^ 37 % 8 = 0 → ((copier l).x 4).toNat / 2 ^ 40 % 8 = 0) ∧
      (((copier l).x 4).toNat / 2 ^ 37 % 8 ≠ 0 → ((copier l).x 4).toNat % 2 ^ 32 % 4 = 0 ∧
        ((copier l).x 1).toNat % 4 = 0 ∧ ((copier l).x 2).toNat % 4 = 0) ∧
      (copier l).away ((copier l).x 1).toNat = false ∧ (copier l).unacked 0 5 = false ∧ (copier l).backs = []) ∧
    (∀ l ∈ [8, 256 + 1], Plain (copier l) ∧ 1 ≤ ((copier l).x 4).toNat % 16 ∧ ((copier l).x 4).toNat % 16 ≤ 8 ∧
      56 + ((copier l).x 4).toNat % 16 ≤ 64 ∧ ((copier l).x 4).toNat / 16 % 16 = 0 ∧ ((copier l).x 4).toNat / 512 = 0) ∧
    (Plain t0 ∧ t0.me.issued.get (3 : Fin 4) = t0.me.completed.get (3 : Fin 4)) ∧
    (∃ s : State, Plain s ∧ s.me.issued.get (3 : Fin 4) ≠ s.me.completed.get (3 : Fin 4)) ∧
    (t0.myChunk = none ∧ (t0.me.q.get (7 : Fin 8)).getLsbD 63 = false ∧ t0.x 2 = 0 ∧ (copier 8).x 2 ≠ 0) ∧
    (∃ s : State, s.myChunk = none ∧ (s.me.q.get (7 : Fin 8)).getLsbD 63 = true) ∧ TrapsNow t0 ∧
    (badScope 9 = false ∧ TrapsNow (copier 8) ∧ ((copier 8).x 4).toNat / 256 % 2 = 0) := by
  unfold Plain TrapsNow
  exact ⟨by decide +kernel, by decide +kernel, by decide +kernel, ⟨on { issued := Vector.replicate 4 1 }, by decide +kernel⟩,
    by decide +kernel, ⟨on { q := Vector.replicate 8 0x8000000000000000 }, by decide +kernel⟩, by decide +kernel,
    by decide +kernel⟩

/-- A state whose pool holds one record, idle, and whose memory is not mapped. -/
def pool : State :=
  { on {} with jobs := [(0, { st := .open_, key := 1, poolBase := 0, poolCount := 1 })] }

def queueAt (s : State) (d : Nat) : Option (QDesc × State) :=
  match s.placeDesc d with
  | .ok _ s₁ =>
      match s₁.canWrite s₁.key (descWords d) with
      | .ok _ s₂ =>
          match s₂.getWords s₂.key (descWords d) with
          | .ok ws s₃ => some (QDesc.ofWords ws, s₃.clearSched)
          | _ => none
      | _ => none
  | _ => none

theorem finds_of (s : State) (d : Nat) (p : QDesc × State → Bool) (h : (queueAt s d).any p = true) :
    ∃ q t, FindsQueue s d q t ∧ p (q, t) = true := by
  unfold queueAt at h
  split at h
  · next v s₁ e₁ =>
    split at h
    · next vs s₂ e₂ =>
      split at h
      · next ws s₃ e₃ => exact ⟨_, _, ⟨s₁, s₂, s₃, v, vs, ws, e₁, e₂, e₃, rfl, rfl⟩, h⟩
      · simp at h
    · simp at h
  · simp at h

/-- A queue of two elements of 8 bytes whose descriptor is at `bootVa` and whose slots follow it; x2 leads to the
descriptor and x3 to the scratchpad. -/
def queue (pushed popped w : Nat) : State :=
  let s := mapped (xs [(2, wd bootVa), (3, pad0)])
  let p := bootTables + 0x10000
  let m := [(0, bootVa + 0x80), (8, 0x101), (0x10, pushed), (0x18, popped), (0x20, w)].foldl
    (fun m e => Memory.writeN m (p + e.1) 8 e.2) s.mem
  { s with mem := m }

/-- `qpush` finds its element's source readable and has nothing to wait for; and its slot takes the element. -/
def pushes (e : QDesc × State) (p : State → Bool) : Bool :=
  let b := (e.2.x 3).toNat
  !e.2.touchesIo e.2.who b e.1.sz && decide (e.2.me.oreqs.length < 64) &&
    (match e.2.readyTo e.2.who 0 b e.1.sz with
     | .ok v u => v == 0 && !u.unacked u.cur 5 && !u.me.softDirty && p u
     | _ => false)

def slotTakes (e : QDesc × State) (u : State) : Bool :=
  let slot := e.1.slot e.1.pushed
  !u.touchesIo (schedWho u.key) slot e.1.sz &&
    (match u.readyTo (schedWho u.key) 1 slot e.1.sz with
     | .ok v s₃ => v == 0 &&
        (match s₃.loadAt s₃.who (e.2.x 3).toNat e.1.sz false with
         | .ok data s₄ =>
            (match s₄.storeAt (schedWho u.key) slot e.1.sz data with
             | .ok .. => true
             | _ => false)
         | _ => false)
     | _ => false)

/-- `qpop` finds its destination writable; and its slot gives its element. -/
def pops (e : QDesc × State) (p : State → Bool) : Bool :=
  let b := (e.2.x 3).toNat
  !e.2.touchesIo e.2.who b e.1.sz && decide (e.2.me.oreqs.length < 64) &&
    (match e.2.readyTo e.2.who 1 b e.1.sz with
     | .ok v u => v == 0 && p u
     | _ => false)

def slotGives (e : QDesc × State) (u : State) : Bool :=
  let slot := e.1.slot e.1.popped
  !u.touchesIo (schedWho u.key) slot e.1.sz &&
    (match u.loadAt (schedWho u.key) slot e.1.sz true with
     | .ok data s₃ =>
        (match s₃.storeAt s₃.who (e.2.x 3).toNat e.1.sz data with
         | .ok .. => true
         | _ => false)
     | _ => false)

theorem witness_LaunchesQueuesAndExit :
    (Plain t0 ∧ t0.active0 un = true ∧ t0.unacked t0.cur 5 = false ∧ t0.myRing.thread = some th0 ∧
      (t0.job th0.job).poolCount ≤ (t0.x 1).toNat ∧ t0.tied th0.job (t0.x 1).toNat = false ∧
      pool.tied th0.job (pool.x 1).toNat = false) ∧
    (Plain pool ∧ (pool.x 1).toNat < (pool.job th0.job).poolCount ∧ (pool.recd th0.job 0).st = .idle ∧
      ∃ t, pool.accept th0.job 0 false = .lost t) ∧
    (∃ s : State, Plain s ∧ (s.x 1).toNat < (s.job th0.job).poolCount ∧ (s.recd th0.job 0).st ≠ .idle) ∧
    (∃ q t, FindsQueue (queue 2 0 0) bootVa q t ∧ (q.occ == q.cap && pushes (q, t) (fun _ => true)) = true) ∧
    (∃ q t, FindsQueue (queue 1 0 0) bootVa q t ∧ (q.occ != q.cap && pushes (q, t) (slotTakes (q, t))) = true) ∧
    (∀ closed ∈ [0, 1], ∃ q t, FindsQueue (queue 2 2 closed) bootVa q t ∧ (q.occ == 0 && q.closed == (closed == 1) &&
      pops (q, t) (fun _ => true)) = true) ∧
    (∃ q t, FindsQueue (queue 1 0 0) bootVa q t ∧ (q.occ != 0 && pops (q, t) (slotGives (q, t))) = true) ∧
    (∀ w ∈ [0, 1, 2], Plain (queue w 0 0) ∧ ((queue w 0 0).x 2).toNat = bootVa ∧ bootVa % 128 = 0) ∧
    t0.copiesOf t0.cur = false ∧
    ∃ s : State, Plain s ∧ s.copiesOf s.cur = true := by
  unfold Plain
  refine ⟨by decide +kernel, ⟨by decide +kernel, by decide +kernel, by decide +kernel, ?_⟩,
    ⟨{ on {} with jobs := [(0, { st := .open_, key := 1, poolCount := 1, recs := [(0, { st := .running })] })] },
      by decide +kernel⟩, ?_, ?_, ?_, ?_, by decide +kernel, by decide +kernel,
    { t0 with copies := [{ core := 0, ch := 0, dst := 0, src := 0, len := 1, key := 1, pc := 0 }] }, by decide +kernel⟩
  · have h : (match pool.accept th0.job 0 false with | .lost _ => true | _ => false) = true := by decide +kernel
    revert h
    cases pool.accept th0.job 0 false <;> simp
  · exact finds_of _ _ (fun e => e.1.occ == e.1.cap && pushes e (fun _ => true)) (by decide +kernel)
  · exact finds_of _ _ (fun e => e.1.occ != e.1.cap && pushes e (slotTakes e)) (by decide +kernel)
  · intro c h
    exact finds_of _ _ (fun e => e.1.occ == 0 && e.1.closed == (c == 1) && pops e (fun _ => true)) (by
        simp only [List.mem_cons, List.not_mem_nil, or_false] at h
        rcases h with rfl | rfl <;> decide +kernel)
  · exact finds_of _ _ (fun e => e.1.occ != 0 && pops e (slotGives e)) (by decide +kernel)

/-! ### The module and the fabric -/

/-- The module with a changed device part, and the thread on core 0. -/
def dev (f : Dev → Dev) : State := { t0 with dev := f t0.dev }

/-- The module after its boot, every link trained in full. -/
def up (f : Dev → Dev) : State := dev (fun d => f { d with bstep := 5, links := Vector.replicate 8 (some .full) })

theorem witness_ResetsPowerAndAlarmsKeepTheirState :
    (∃ s : State, s.dev.halted = true ∧ s.dev.powered = true) ∧ ¬ (t0.dev.halted = true ∧ t0.dev.powered = true) ∧
    (bootedTo 1 { failed := some (1, 3), selfTest := [] } = 0 ∧ bootedTo 1 { failed := some (2, 3), selfTest := [] } = 1 ∧
      bootFailure 2 { failed := some (1, 3), selfTest := [] } = some (2, 3)) ∧
    (∃ s : State, s.dev.clocksOn = false) ∧
    (t0.dev.clocksOn = true ∧ t0.dev.almLock = false ∧ Memory.wf t0.mem = true ∧ t0.backs = []) ∧
    (∃ s : State, s.dev.clocksOn = true ∧ s.dev.almLock = true) ∧
    ((t0.dev.domain 31).target = none ∧ t0.dev.bstep < 2) ∧
    (∃ s : State, (s.dev.domain 31).target = none ∧ s.dev.bstep = 2) ∧
    (∃ s : State, (s.dev.domain 0).target = some 7) ∧ ((114 : Int) < 115 ∧ (115 : Int) ≤ 115) ∧
    (∃ s : State, s.dev.almEn.getLsbD 4 = false) ∧ (∃ s : State, s.dev.powered = false) ∧
    (∀ pol ∈ [0, 1, 2], ∃ s : State, s.dev.almEn.getLsbD 4 = true ∧ s.dev.powered = true ∧ s.dev.almPol = pol) ∧
    ((t0.ring 1).chunkAt (slotOf 16) = none ∧ (t0.ring 1).thread = none ∧ (t0.core 16).l1 = []) ∧
    ((t0.ring 0).chunkAt (slotOf 1) = none ∧ (t0.ring 0).head ≠ slotOf 1) ∧
    ∃ s : State, ((s.ring 0).chunkAt (slotOf 1)).isSome = true := by
  refine ⟨⟨dev (fun d => { d with halted := true }), by decide +kernel⟩, by decide +kernel, by decide,
    ⟨dev (fun d => { d with clocksOn := false }), by decide +kernel⟩, by decide +kernel,
    ⟨dev (fun d => { d with almLock := true }), by decide +kernel⟩, by decide +kernel,
    ⟨dev (fun d => { d with bstep := 2 }), by decide +kernel⟩,
    ⟨dev (fun d => d.setDomain 0 { target := some 7 }), by decide +kernel⟩, by decide,
    ⟨dev (fun d => { d with almEn := 0x0F#5 }), by decide +kernel⟩,
    ⟨dev (fun d => { d with powered := false }), by decide +kernel⟩, ?_, by decide +kernel, by decide +kernel,
    forked [chunk 0, chunk 1] {}, by decide +kernel⟩
  exact fun pol _ => ⟨dev (fun d => { d with almPol := pol }),
    (by decide : (0x1F#5).getLsbD 4 = true), rfl, rfl⟩

theorem witness_LinksDebugAndRegistersFollowTheirWrites :
    (¬ ((7 : Fin 8).val % 2 = 0 ∨ t0.dev.bifur.getLsbD ((7 : Fin 8).val / 2) = true)) ∧
    (∃ s : State, (7 : Fin 8).val % 2 = 1 ∧ s.dev.bifur.getLsbD ((7 : Fin 8).val / 2) = true) ∧
    (6 : Fin 8).val % 2 = 0 ∧ TrainKind.ioOnly ≠ .plainPcie ∧ t0.dev.dbg = false ∧ (∃ s : State, s.dev.dbg = true) ∧
    (State.reset.dev.dbg = false ∧ State.reset.liveJobs = [] ∧ t0.liveJobs ≠ []) ∧
    (t0.dev.links.get (7 : Fin 8) = none ∧ t0.dev.bstep ≠ 5) ∧
    ((up id).dev.links.get (7 : Fin 8) = some .full ∧ (up id).dev.bstep = 5 ∧ (up id).dev.msixPba.get (7 : Fin 8) = 0 ∧
      ((up id).job 255).bells.length < 256) ∧
    (∃ s : State, s.dev.bstep = 5 ∧ s.dev.links.get (7 : Fin 8) = some .ioOnly) ∧
    (∀ n ∈ [255, 256], ∃ s : State, s.dev.bstep = 5 ∧ s.dev.links.get (7 : Fin 8) = some .full ∧ (s.job 0).bells.length = n) ∧
    (∀ pa ∈ [0, 0xFFD000204, 0xFFD000200, 0xFFD001020, 0xFFD002010, 0xFFE000220, 0xFFE100210, 0xFFE118000, 0xFFE210000, 0xFFF000208,
      0xFFF0004C0, 0xFFF010000], ¬ IoRegister pa) ∧
    (∀ e ∈ [(8, 8), (0x1010, 8), (0x1300, 8), (0x2001, 8), (0x2020, 8), (0x20000, 8), (0x100030, 8), (0x200208, 8), (0, 4),
      (0x300004, 8), (0x301020, 8)], ¬ Bar0Access e.1 e.2) ∧
    (∀ e ∈ [(0, 8), (0x1008, 8), (0x12F8, 8), (0x2018, 8), (0x1FFF8, 8), (0x1FF028, 8), (0x200200, 8), (0x300004, 4), (0x30101C, 4),
      (0x301018, 8)], Bar0Access e.1 e.2) := by
  refine ⟨by decide +kernel, ⟨dev (fun d => { d with bifur := 8 }), by decide +kernel⟩, by decide, by decide,
    by decide +kernel, ⟨dev (fun d => { d with dbg := true }), by decide +kernel⟩, by decide +kernel, by decide +kernel,
    by decide +kernel, ⟨up (fun d => { d with links := Vector.replicate 8 (some .ioOnly) }), by decide +kernel⟩, ?_,
    by unfold IoRegister MemoryOffset FabricOffset ModuleOffset; decide,
    by unfold Bar0Access Bar0Register ModuleOffset; decide, by unfold Bar0Access Bar0Register ModuleOffset; decide⟩
  exact fun n _ => ⟨{ up id with jobs := [(0, { bells := List.replicate n { idx := 0 } })] }, rfl, rfl, List.length_replicate⟩

/-- A flit that waits at node 0 for node 1, the same on a plane at a node, and one of its packet's flits at its destination. -/
def flit0 : Flit := { at_ := 0, src := 0, dst := 1, age := 0, cls := 3, key := 1, dl := 0, lane := 0, seq := 0, pid := 5, block := 0 }
def hop0 (n : Nat) : Flit := { flit0 with at_ := n, inp := some 1, plane := 1, age := 1 }
def flying (fs : List Flit) : State := { t0 with fab := { t0.fab with flits := fs, pkts := [pkt0] } }

/-- A packet that is checked at core 16, whose thread may receive it in a buffer with room for so many bytes. -/
def pkt1 (len : Nat) : Pkt :=
  { pkt0 with dst := 1, dcore := 16, head := true, payload := List.replicate len 0, arrived := 0xFFFFFFFFFFFFFFFF#64 }
def receiver (p : Pkt) (b : Rb) : State :=
  { State.reset with
    cores := [(16, { rb := Vector.replicate 4 b })]
    rings := [(1, { key := 1, thread := some th0 })]
    fab := { pkts := [p], lmtN := [(64, 0x8000000000000001)] } }

/-- Rings of 4096 bytes with 4032 and with 4031 of them in use, where a message of no bytes takes 64. -/
def room : Rb := { en := true, tail := 4032 }
def noRoom : Rb := { en := true, tail := 4033 }

/-- The receiver's state with key 1 in the table of node 0 too, and a packet that waits for its answer. -/
def bothEnds (p : Pkt) : State :=
  let s := receiver p room
  { s with fab := { s.fab with lmtN := (0, 0x8000000000000001) :: s.fab.lmtN, pkts := [p, pkt0] } }

/-- The answer to a packet, come back to node 0. -/
def answer1 (kind : Nat) : Pkt :=
  { pkt1 0 with pid := 6, src := 1, dst := 0, kind := kind, ref := some 5, reply := some { kind := kind, mask := 0, data := [] } }

/-- A packet that is answered, or stands in a phase, and has come from another device through port 23. -/
def phased (f : Phase) (r : Option Reply) : Pkt := { pkt1 0 with phase := f, reply := r }
def denial : Reply := { kind := 6, mask := 0, data := [] }
def foreign : Pkt := { phased .acked (some { kind := 5, mask := 0, data := [] }) with sdev := 9, origin := some (23, 7) }

/-- Port 23 in a state, with key 1 in its membership table. -/
def portState (u : Ulk) (ps : List Pkt) : State :=
  { dev (fun d => d.setPort 23 u) with
    fab := { t0.fab with
      lmtP := [(64 * 23, 0x8000000000000001)], lmtN := [(64, 0x8000000000000001), (64 * 247, 0x8000000000000001)]
      drt := [(9, 0x8000000000000000 + 2 ^ 47)], pkts := ps } }

/-- The same with port 20 alone leading to device 9, where key 2 is a member. -/
def otherPort (u : Ulk) : State :=
  let s := portState u []
  { s with fab := { s.fab with lmtP := (64 * 20, 0x8000000000000002) :: s.fab.lmtP, drt := [(9, 0x8000000000000000 + 2 ^ 44)] } }

/-- A head and a block of data as they come through a port. -/
def head0 (kind : Nat) : UalHead :=
  { kind := kind, core := 16, buf := 3, score := 0, mseq := 0, tag := 0, len := 64, sand := true, sdl := 9, off := 0, size := 8, atom := none }
def ual0 (key : BitVec 16) (body : UalBody) : UalFlit := { ctr := 0, ok := true, key := key, dev := 9, id := 5, body := body }
def tx0 : UalTx := { dev := 9, key := 1, id := 5, own := true, body := .data false 0 [] }

theorem witness_Flits :
    (OnlyFlit (flying [flit0]) 0 flit0 ∧ flit0.cls = 3 ∧ (∃ p < 8, productive 0 flit0.dst p = true) ∧ flit0.dst ≠ 0 ∧
      AtSource flit0 ∧ (flying [flit0]).inFlight flit0 < 128 ∧ (flying [flit0]).fab.starve = 0) ∧
    (OnlyFlit (flying [hop0 0]) 0 (hop0 0) ∧ ComesIn (hop0 0) ∧ (hop0 0).dst = 1) ∧
    (∃ (s : State) (f : Flit), OnlyFlit s 0 f ∧ AtSource f ∧ ∃ m ∈ neighbours 0, s.fab.starve.getLsbD m = true) ∧
    (OnlyFlit (flying [hop0 1]) 1 (hop0 1) ∧ ComesIn (hop0 1) ∧ (hop0 1).cls = 3 ∧ (hop0 1).dst = 1 ∧ (hop0 1).block = 0 ∧
      (flying [hop0 1]).pkt (hop0 1).pid = some pkt0) ∧
    (Table.get t0.fab.blocked 0 0 < 128 ∧ ∃ s : State, Table.get s.fab.blocked 0 0 = 128) ∧
    ∃ (s : State) (f : Flit), s.fab.flits.find? (fun g => g.pid == f.pid && g.block == f.block && g.cls == 5 &&
      g.inp.isNone) = some f ∧ 0 < f.block ∧ s.pkt f.pid = none := by
  unfold OnlyFlit AtSource ComesIn
  exact ⟨by decide +kernel, by decide +kernel,
    ⟨{ flying [flit0] with fab := { (flying [flit0]).fab with starve := 2 } }, flit0, by decide +kernel⟩, by decide +kernel,
    ⟨by decide +kernel, { t0 with fab := { t0.fab with blocked := [(0, 128)] } }, by decide +kernel⟩,
    { t0 with fab := { t0.fab with flits := [{ flit0 with cls := 5, block := 1 }] } }, { flit0 with cls := 5, block := 1 },
    by decide +kernel⟩

theorem witness_FabricMovesAndAnswersPackets :
    (Checked (receiver (pkt1 0) room) (pkt1 0) ∧ (pkt1 0).ref = none ∧ Admitted (receiver (pkt1 0) room) (pkt1 0) ∧
      entrySize 0 = 4096 * 2 ^ room.lsz - occupied room ∧ ((receiver (pkt1 0) room).ring 1).chunks = [] ∧
      ((receiver (pkt1 0) room).recd 0 0).cap.mode = 0 ∧ Memory.wf (receiver (pkt1 0) room).mem = true) ∧
    (Checked (receiver (pkt1 0) noRoom) (pkt1 0) ∧ Admitted (receiver (pkt1 0) noRoom) (pkt1 0) ∧
      4096 * 2 ^ noRoom.lsz - occupied noRoom < entrySize 0) ∧
    ((pkt1 4096).payload.length = 4096 ∧ ∀ b < (4096 + 63) / 64, (pkt1 4096).arrived.getLsbD b = true) ∧
    (∃ (s : State) (p : Pkt), Checked s p ∧ s.memberN p.dst p.key = false) ∧
    ((pkt1 0).passes [(0, 575)] = false ∧ (pkt1 0).sand = false) ∧
    (¬ IsRequest { pkt1 0 with key := 2 }) ∧
    (∀ kind ∈ [0, 1, 2, 3], Checked (receiver { pkt1 0 with kind := kind, key := 2 } room) { pkt1 0 with kind := kind, key := 2 } ∧
      IsRequest { pkt1 0 with kind := kind, key := 2 } ∧
      (receiver { pkt1 0 with kind := kind, key := 2 } room).memberN 1 2 = false ∧
      Checked (receiver { pkt1 0 with kind := kind } room) { pkt1 0 with kind := kind } ∧
      (receiver { pkt1 0 with kind := kind } room).memberN 1 1 = true) ∧
    (∀ kind ∈ [5, 10], Checked (receiver (answer1 kind) room) (answer1 kind) ∧ (answer1 kind).ref = some 5 ∧
      (receiver (answer1 kind) room).memberN (answer1 kind).dst (answer1 kind).key = false) ∧
    (∀ kind ∈ [5, 6, 10], Checked (bothEnds (answer1 kind)) (answer1 kind) ∧ (answer1 kind).ref = some 5 ∧
      (bothEnds (answer1 kind)).pkt 5 = some pkt0 ∧
      (bothEnds (answer1 kind)).memberN (answer1 kind).dst (answer1 kind).key = true) ∧
    (∀ e ∈ [(Phase.acked, none), (.denied, some denial), (.refused, none), (.held, none)], ∃ (s : State) (p : Pkt),
      s.pkt p.pid = some p ∧ p.phase = e.1 ∧ p.reply = e.2 ∧ s.answering p.pid = false ∧ p.kind = 7 ∧ p.origin = none ∧
      p.hart = none ∧ (∀ q ∈ s.fab.pkts.filter (fun q => q.pid != p.pid), q.phase ≠ .queued) ∧
      (s.ring (p.score / 16)).thread = none ∧ (s.ring (p.score / 16)).parked = none) ∧
    ((portState {} [foreign]).pkt foreign.pid = some foreign ∧ foreign.phase = .acked ∧ foreign.sand = false ∧
      (portState {} [foreign]).answering foreign.pid = false ∧ (portState {} [foreign]).memberP 23 foreign.key = true ∧
      (portState {} [foreign]).fab.pkts.filter (fun q => q.pid != foreign.pid) = [] ∧
      (portState {} [foreign]).portOut (foreign.dst / 64) foreign.sdev foreign.addr = some 23) ∧
    (∀ b ∈ [room, noRoom], ∃ (s : State) (p : Pkt), s.pkt p.pid = some p ∧ p.phase = .fly ∧ p.sand = true ∧ p.open_ = true ∧
      s.answering p.pid = false ∧ Admitted s p ∧ p.payload.length = 0 ∧ (s.core p.dcore).rb.get p.buf = b) := by
  unfold Checked Admitted IsRequest
  refine ⟨by decide +kernel, by decide +kernel, ⟨by unfold pkt1; exact List.length_replicate, by decide +kernel⟩,
    ⟨receiver { pkt1 0 with key := 2 } room, { pkt1 0 with key := 2 }, by decide +kernel⟩, by decide +kernel, by decide +kernel,
    by decide +kernel, by decide +kernel, by decide +kernel, ?_, ⟨by decide +kernel, by decide +kernel, by decide +kernel,
      by decide +kernel, by decide +kernel, by decide +kernel, port_of _ _ _ _ 23 (by decide +kernel) (by decide +kernel)⟩, ?_⟩
  · intro e h
    refine ⟨receiver (phased e.1 e.2) room, phased e.1 e.2, ?_⟩
    simp only [List.mem_cons, List.not_mem_nil, or_false] at h
    rcases h with rfl | rfl | rfl | rfl <;> decide +kernel
  · intro b h
    refine ⟨receiver { pkt1 0 with sand := true, open_ := true } b, { pkt1 0 with sand := true, open_ := true }, ?_⟩
    simp only [List.mem_cons, List.not_mem_nil, or_false] at h
    rcases h with rfl | rfl <;> decide +kernel

theorem witness_Ports :
    ((portState {} []).dev.port 23).tx = none ∧ ((portState { tx := some 1 } []).dev.port 23).queue = [] ∧
    (∀ n ∈ [2 ^ 63 - 2, 2 ^ 64 - 1], ∃ (s : State) (u : Ulk), s.dev.port 23 = u ∧ u.txPend = none ∧ u.tx = some 1 ∧
      u.queue = [tx0] ∧ u.txctr = n) ∧
    (((portState {} []).dev.port 23).rxPend = none ∧ ((portState {} []).dev.port 23).rx = none) ∧
    (∀ sand ∈ [true, false], (ual0 1 (.data sand 0 [])).body = .data sand 0 []) ∧
    (((portState { rx := some 1 } []).dev.port 23).rx = some 1 ∧ ((portState { rx := some 1 } []).dev.port 23).rxlast = none ∧
      (ual0 1 (.head (head0 7))).ok = true ∧ (ual0 1 (.head (head0 7))).ctr = 0 ∧
      (portState { rx := some 1 } []).memberP 23 1 = true ∧ (portState { rx := some 1 } []).memberP 23 2 = false ∧
      (portState { rx := some 1 } []).portOut (23 / 6) 9 0 = some 23 ∧ (portState { rx := some 1 } []).portOut (23 / 6) 8 0 = none) ∧
    ((portState { rx := some 1 } []).memberN (ualNode 23) 1 = true ∧ (otherPort { rx := some 1 }).memberP 23 2 = false ∧
      (otherPort { rx := some 1 }).portOut (23 / 6) 9 0 = some 20 ∧ (otherPort { rx := some 1 }).memberP 20 2 = true) ∧
    (∃ s : State, (s.dev.port 23).rx = some 1 ∧ s.memberP 23 2 = true ∧ s.memberN (ualNode 23) 2 = false ∧
      s.portOut (23 / 6) 9 0 = some 23) ∧
    (∀ kind ∈ [1, 3, 7, 8], (head0 kind).kind = kind) ∧
    ∃ (s : State) (q : Pkt), (s.dev.port 23).rx = some 1 ∧ s.memberP 23 1 = true ∧ s.pkt 5 = some q ∧ q.phase = .away ∧
      q.away = some (9, 23) ∧ q.sand = false ∧ s.memberN q.dst q.key = true := by
  refine ⟨by decide +kernel, by decide +kernel, ?_, by decide +kernel, by decide,
    ⟨by decide +kernel, by decide +kernel, by decide +kernel, by decide +kernel, by decide +kernel, by decide +kernel,
      port_of _ _ _ _ 23 (by decide +kernel) (by decide +kernel), by simp [State.portOut, portState, Table.get, Table.get?]⟩,
    ⟨by decide +kernel, by decide +kernel, port_of _ _ _ _ 20 (by decide +kernel) (by decide +kernel), by decide +kernel⟩,
    ⟨{ portState { rx := some 1 } [] with fab := { (portState { rx := some 1 } []).fab with lmtP := [(64 * 23, 0x8000000000000002)] } },
      by decide +kernel, by decide +kernel, by decide +kernel, port_of _ _ _ _ 23 (by decide +kernel) (by decide +kernel)⟩,
    by decide +kernel,
    portState { rx := some 1 } [{ pkt1 0 with phase := .away, away := some (9, 23) }],
    { pkt1 0 with phase := .away, away := some (9, 23) }, by decide +kernel⟩
  exact fun n _ => ⟨portState { tx := some 1, queue := [tx0], txctr := n } [], { tx := some 1, queue := [tx0], txctr := n },
    rfl, rfl, rfl, rfl, rfl⟩

/-! ### The host and its mailbox -/

/-- A half of the host's range, and a module line. -/
def half0 : Nat := 2 ^ 40
def line0 : Nat := 2 ^ 30

def halfState (h : Half) : State := { up id with halves := [(half0, h)] }
def filtState (x : Filt) : State := { up id with filter := [(line0, x)] }

theorem witness_HostLinesFollowTheirProtocol : isHostLine half0 = true ∧
    (t0.cacheOpen half0 = false ∧ t0.dev.bstep ≠ 5 ∧ (halfState {}).cacheOpen half0 = true ∧
      ((halfState {}).dieHalves half0).length < 65536 ∧ (halfState {}).backs = [] ∧ Memory.wf (halfState {}).mem = true) ∧
    ((filtState {}).dev.bstep = 5 ∧ (filtState {}).dev.links.get (7 : Fin 8) = some .full ∧ (filtState {}).backs = []) ∧
    (∀ st ∈ [Mesi.i, .s, .e, .m], HalfIs (halfState { st := st }) half0 st) ∧
    (∀ own ∈ [true, false], ∀ st ∈ [Mesi.i, .s], ((halfState { st := st, req := some own }).half half0).req = some own ∧
      ((halfState { st := st, req := some own }).half half0).st = st) ∧
    (t0.half half0).req = none ∧ (∀ st ∈ [FilterSt.n, .s, .a], FilterIs (filtState { st := st }) line0 st) ∧
    (∀ inv ∈ [true, false], isModuleLine line0 = true ∧
      (filtState { st := .a, bi := some inv }).filt line0 = { st := .a, bi := some inv, held := [] }) ∧
    (∀ inv ∈ [true, false], ∀ held ∈ [[], [Instr.memRdAny ⟨0, line0⟩]],
      (filtState { st := .a, bi := some inv, held := held }).filt line0 = { st := .a, bi := some inv, held := held }) ∧
    Memory.wf ((filtState {}).recallFor line0 true).mem = true := by
  unfold HalfIs FilterIs
  decide +kernel

/-- The mailbox runs a command with these operands. -/
def mailbox (code : Nat) (ws : List Nat) (f : Dev → Dev) : State :=
  dev (fun d => f { d with
    mbxBusy := true, mbxCmd := code, mbxIn := Vector.ofFn (fun i => BitVec.ofNat 64 (ws.getD i.val 0)) })

/-- Tables that map one readable and writable 2 MiB page at `bootVa`, and a full link 0. -/
def openable (ws : List Nat) : State :=
  let e := [(bootTables, bootTables + 0x2000 + 1), (bootTables + 0x2000 + 16 * 192, bootTables + 0x4000 + 1),
    (bootTables + 0x4000, bootTables + 0x6000 + 1), (bootTables + 0x6000, bootTables + 0x200000 + 0x380 + 3),
    (bootTables + 0x6008, 0x10000)]
  { mailbox 1 ws (fun d => { d with links := Vector.replicate 8 (some .full), keys := [(0, 0), (1, 2)] }) with
    jobs := [], mem := e.foldl (fun m e => Memory.writeN m e.1 8 e.2) [] }

def openWords : List Nat := [256, bootTables, bootVa, 4096, 0]

theorem witness_JobOpen : Started (openable openWords) 1 ∧ (openable openWords).openOperands = true ∧
    ((openable openWords).job 0).st = .closed ∧ (∀ e ∈ (openable openWords).jobs, e.2.st = .closed) ∧
    (openable openWords).fab.roomFor (BitVec.ofNat 24 (operandWord (openable openWords) 4)) = true ∧
    (openable [256, bootTables, bootVa, 4097, 0]).openOperands = false ∧
    (∃ s : State, Started s 1 ∧ s.openOperands = true ∧ (s.job 0).st ≠ .closed) ∧
    ∃ s : State, Started s 1 ∧ s.openOperands = true ∧ (s.job 0).st = .closed ∧
      ∃ e ∈ s.jobs, e.2.st ≠ .closed ∧ e.2.key = operandWord s 0 / 256 % 65536 := by
  unfold Started
  exact ⟨by decide +kernel, by decide +kernel, by decide +kernel, by decide +kernel, by decide +kernel, by decide +kernel,
    ⟨{ openable openWords with jobs := [(0, { st := .open_, key := 9 })] }, by decide +kernel⟩,
    { openable openWords with jobs := [(5, { st := .closing, key := 1 })] }, by decide +kernel⟩

/-- An SPDM session on link 0. -/
def inSession (d : Dev) : Dev :=
  { d with spdm := Vector.replicate 8 { session := true, handshake := true, version := true, caps := true, algs := true }
           links := Vector.replicate 8 (some .full), bstep := 5 }

/-- Job 0 is being closed and nothing of it is left. -/
def closing : State := { mailbox 2 [0] id with jobs := [(0, { st := .closing, key := 1 })] }

theorem witness_CommandsAnswerAndTakeEffect : (∀ code ∈ [0, 1, 2, 3, 4, 5, 6], Started (mailbox code [1] id) code) ∧
    (∀ code ∈ [1, 3], ∃ s : State, s.dev.mbxBusy = true ∧ s.dev.mbxPost = none ∧ s.dev.attReq = true ∧ s.dev.mbxCmd = code) ∧
    (∃ s : State, Started s 2 ∧ operandWord s 0 = 256) ∧
    (∃ s : State, Started s 2 ∧ operandWord s 0 = 255 ∧ (s.job 255).st ≠ .open_) ∧
    (∃ s : State, Started s 2 ∧ operandWord s 0 < 256 ∧ (s.job (operandWord s 0 % 256)).st = .open_) ∧
    ((closing.job 0).st = .closing ∧ closing.copies = [] ∧ closing.fab.pkts = [] ∧ (closing.job 0).recs = [] ∧
      Started closing 2 ∧ operandWord closing 0 % 256 = 0) ∧
    (∃ s : State, (s.job 0).st = .closing ∧ s.copies = [] ∧ s.fab.pkts = [] ∧ (s.job 0).recs = [] ∧ s.dev.dbgPend = true ∧
      (s.setJob 0 { s.job 0 with st := .closed }).liveJobs = []) ∧
    (∀ w ∈ [1, 4095], ∃ s : State, Started s 3 ∧ (s.dev.spdm.toList.getD s.dev.mbxLink {}).session = true ∧
      operandWord s 0 = w ∧ (Config.unwrap (s.dev.spdm.toList.getD s.dev.mbxLink {}).kek (s.wrapped 9) = none ∨
        ∃ m, Config.unwrap (s.dev.spdm.toList.getD s.dev.mbxLink {}).kek (s.wrapped 9) = some m)) ∧
    (∀ w ∈ [0, 4096], ∃ s : State, Started s 3 ∧ (s.dev.spdm.toList.getD s.dev.mbxLink {}).session = true ∧ operandWord s 0 = w) ∧
    (Started (mailbox 3 [1] id) 3 ∧ ¬ ((mailbox 3 [1] id).dev.spdm.toList.getD 0 {}).session = true) ∧
    (∃ s : State, Started s 4 ∧ operandWord s 0 = 4095) ∧
    (∃ s : State, Started s 5 ∧ (s.dev.spdm.toList.getD s.dev.mbxLink {}).session = true ∧ operandWord s 0 = 23 ∧
      (s.dev.port 23).queue = []) ∧
    (Started (mailbox 6 [] id) 6 ∧ (mailbox 6 [] id).dev.mbxIe = false) ∧
    (∃ s : State, s.dev.mbxBusy = true ∧ s.dev.mbxPost = some (0, [1]) ∧ s.dev.mbxIe = false) := by
  unfold Started
  refine ⟨by decide +kernel, ?_, ⟨mailbox 2 [256] id, by decide +kernel⟩, ⟨mailbox 2 [255] id, by decide +kernel⟩,
    ⟨mailbox 2 [0] id, by decide +kernel⟩, by decide +kernel,
    ⟨{ closing with dev := { closing.dev with dbgPend := true } }, by decide +kernel⟩, ?_, ?_, by decide +kernel,
    ⟨mailbox 4 [4095] id, by decide +kernel⟩,
    ⟨mailbox 5 [23] inSession, by decide +kernel⟩, by decide +kernel,
    mailbox 0 [] (fun d => { d with mbxPost := some (0, [1]) }), by decide +kernel⟩
  · exact fun c _ => ⟨mailbox c [1] (fun d => { d with attReq := true }), rfl, rfl, rfl, rfl⟩
  · intro w h
    refine ⟨mailbox 3 [w] inSession, ⟨rfl, rfl, rfl, rfl⟩, rfl, ?_, ?_⟩
    · revert h
      simp only [List.mem_cons, List.not_mem_nil, or_false]
      rintro (rfl | rfl) <;> decide +kernel
    · cases h : Config.unwrap ((mailbox 3 [w] inSession).dev.spdm.toList.getD (mailbox 3 [w] inSession).dev.mbxLink {}).kek
        ((mailbox 3 [w] inSession).wrapped 9) with
      | none => exact .inl rfl
      | some m => exact .inr ⟨m, rfl⟩
  · intro w h
    refine ⟨mailbox 3 [w] inSession, ⟨rfl, rfl, rfl, rfl⟩, rfl, ?_⟩
    revert h
    simp only [List.mem_cons, List.not_mem_nil, or_false]
    rintro (rfl | rfl) <;> decide +kernel

/-- A doorbell for record `i` of a pool of one, which waits for these lines. -/
def rung (i : Nat) (lines : List Nat) : State :=
  { pool with
    filter := lines.map (fun l => (l, { held := [.memWr ⟨0, l⟩ 0 0 .n] }))
    jobs := [(0, { st := .open_, key := 1, poolCount := 1, bells := [{ idx := i, lines := lines }] })] }

/-- Core 1 holds a version translated through an entry that an invalidation has removed. -/
def leaf0 : Leaf :=
  { key := 1, page := 0, size := 4096, frame := 0, cls := 0, cfmt := 0, hom := 0, hp := 0, tier := 0, kid := 1, r := true, w := true
    x := true }

theorem witness_DoorbellsSessionsAndInvalidations :
    (((rung 0 []).job 0).bells = [{ idx := 0 }] ∧ ((rung 0 []).job 0).st = .open_ ∧ (rung 0 []).dev.attReq = false ∧
      (rung 0 []).bellWaits { idx := 0 } = false ∧
      0 < ((rung 0 []).job 0).poolCount ∧ ((rung 0 []).recd 0 0).st = .idle ∧
      ∃ t, (rung 0 []).accept 0 0 false = .lost t ∧ ((t.job 0).bells == [{ idx := 0 }]) = true) ∧
    (((rung 1 []).job 0).bells = [{ idx := 1 }] ∧ ((rung 1 []).job 0).poolCount = 1 ∧ (rung 1 []).bellWaits { idx := 1 } = false) ∧
    (((rung 0 [line0]).job 0).bells = [{ idx := 0, lines := [line0] }] ∧
      (rung 0 [line0]).bellWaits { idx := 0, lines := [line0] } = true) ∧
    (mailbox 0 [] inSession).dev.bstep = 5 ∧
    (∃ (s : State) (k : Core) (v : Nat × Line), leaf0 ∈ s.tlbiGone ∧ (1, k) ∈ s.cores ∧ v ∈ k.l1 ∧
      (s.ring 0).thread = some th0 ∧ th0.key = leaf0.key ∧ (s.ring 0).isSpec (slotOf 1) = true ∧ v.2.sw ≠ 0 ∧
      leaf0.frame ≤ 128 * (v.1 % 2 ^ 73) ∧ 128 * (v.1 % 2 ^ 73) < leaf0.frame + leaf0.size) ∧
    (t0.tlbiGone = [] ∧ t0.tlbiPerformed = true) ∧
    ((mailbox 0 [] inSession).dev.links.get (7 : Fin 8) ≠ none ∧
      ((mailbox 0 [] inSession).dev.spdm.get (7 : Fin 8)).version = true ∧
      ((mailbox 0 [] inSession).dev.spdm.get (7 : Fin 8)).caps = true ∧
      ((mailbox 0 [] inSession).dev.spdm.get (7 : Fin 8)).algs = true ∧
      ((mailbox 0 [] inSession).dev.spdm.get (7 : Fin 8)).handshake = true) ∧
    (∃ s : State, s.dev.links.get (7 : Fin 8) ≠ none ∧ (s.dev.spdm.get (7 : Fin 8)).version = false) ∧
    t0.dev.links.get (7 : Fin 8) = none ∧
    (∀ op ∈ [0, 1, 2, 3], ∃ s : State, s.tlbiGo = true ∧ s.tlbiOp = op ∧ (∀ e ∈ s.cores, e.2.tlb = []) ∧ s.tlb2 = []) := by
  refine ⟨⟨by decide +kernel, by decide +kernel, by decide +kernel, by decide +kernel, by decide +kernel, by decide +kernel, ?_⟩,
    by decide +kernel, by decide +kernel, by decide +kernel,
    ⟨{ State.reset with
       tlbiGone := [leaf0], cores := [(1, { l1 := [(9, { st := .s 1, sw := 2 })] })]
       rings := [(0, { ring0 with forked := some loop0, chunks := [chunk 0, chunk 1] })] },
      { l1 := [(9, { st := .s 1, sw := 2 })] }, (9, { st := .s 1, sw := 2 }), by decide +kernel⟩, by decide +kernel,
    by decide +kernel, ⟨dev (fun d => { d with links := Vector.replicate 8 (some .full) }), by decide +kernel⟩,
    by decide +kernel, ?_⟩
  · have h : (match (rung 0 []).accept 0 0 false with
      | .lost t => (t.job 0).bells == [{ idx := 0 }]
      | _ => false) = true := by decide +kernel
    revert h
    cases (rung 0 []).accept 0 0 false <;> simp
  · exact fun op _ => ⟨{ t0 with tlbiGo := true, tlbiOp := op }, rfl, rfl, by
      simp [t0, on], rfl⟩
/-! ### The scheduler and chunks -/

/-- A snapshot of a node of a kind, with successors, whose word is at `bootVa`. -/
def snap0 (kind nsucc : Nat) : Snap :=
  { ctl := kind * 65536 + nsucc * 256, dep := 0, entry := bootVa, cmplAddr := 0, cmplTag := 0, succ := [], qbind := []
    node := [bootVa, 0, 0] }

/-- Job 0 with one record. -/
def record (st : JobSt) (r : Rec) : State :=
  { mapped {} with jobs := [(0, { st := st, key := 1, root := bootTables, recs := [(0, r)] })] }

theorem eval_of (s : State) (j i : Nat) (n : Snap) (p : Nat → State → Bool)
    (h : (match s.evalWord j i n with | .ok w t => p w t | _ => false) = true) :
    ∃ w t, s.evalWord j i n = .ok w t ∧ p w t = true := by
  cases e : s.evalWord j i n with
  | ok w t => exact ⟨w, t, rfl, by rw [e] at h; exact h⟩
  | _ => rw [e] at h; simp at h

/-- A launch that completes in a job that is open or being closed, with a status. -/
def completing (st : JobSt) (status : Nat) : State :=
  record st { st := .completing, status := status, snap := some { snap0 0 2 with succ := [1, 2] } }

def written (s : State) : Bool × State := s.writable (s.job 0).key [(s.job 0).poolBase + 512 * 0]

theorem witness_LaunchCompletion : (t0.recd 0 0).st ≠ .completing ∧
    (∀ st ∈ [JobSt.closing, .open_], ∀ status ∈ [0, 1], let s := completing st status
      (s.recd 0 0).st = .completing ∧ (s.recd 0 0).snap = some { snap0 0 2 with succ := [1, 2] } ∧ s.launchTraffic 0 0 = false ∧
      s.reports.contains (0, 0) = false ∧ (s.recd 0 0).bound = [] ∧ (s.recd 0 0).cap.mode = 0 ∧ (snap0 0 2).cmplAddr = 0 ∧
      (s.recd 0 0).status = status ∧ (s.releaseJob (s.job 0).key).backs = [] ∧
      (written (s.releaseJob (s.job 0).key)).1 = true ∧
      ((written (s.releaseJob (s.job 0).key)).2.clearSched.job 0).st = st) ∧
    ∃ s : State, (s.recd 0 0).st = .completing ∧ (s.recd 0 0).snap = some { snap0 0 2 with succ := [1, 2] } ∧
      s.launchTraffic 0 0 = false ∧ s.reports.contains (0, 0) = false ∧ (s.recd 0 0).bound = [] ∧ (s.recd 0 0).cap.mode = 0 ∧
      (s.releaseJob (s.job 0).key).backs ≠ [] :=
  ⟨by decide +kernel, by decide +kernel,
    { completing .open_ 0 with backs := [{ ln := 0, half := 0, key := 0, mask := 1, full := 0, data := 0 }] }, by decide +kernel⟩

/-- What a branch, a switch and another node select of two successors. -/
theorem test_Chosen : Chosen { snap0 1 2 with succ := [1, 2] } 0 = [1] ∧ Chosen { snap0 1 2 with succ := [1, 2] } 7 = [2] ∧
    Chosen { snap0 3 2 with succ := [1, 2] } 1 = [2] ∧ Chosen { snap0 3 2 with succ := [1, 2] } 2 = [] ∧
    Chosen { snap0 0 2 with succ := [1, 2] } 9 = [1, 2] := by decide

theorem witness_Edges : (pool.tied 0 0 = false ∧ (pool.recd 0 0).st = .idle ∧ ∃ t, pool.accept 0 0 true = .lost t) ∧
    (∃ s : State, s.tied 0 0 = false ∧ (s.recd 0 0).st = .waiting ∧ (s.recd 0 0).wait = 2) ∧
    ∀ n ∈ [14, 15], ∃ s : State, s.tied 0 0 = false ∧ (s.recd 0 0).st = .running ∧ (s.recd 0 0).held = n := by
  refine ⟨⟨by decide +kernel, by decide +kernel, ?_⟩, ⟨record .open_ { st := .waiting, wait := 2 }, by decide +kernel⟩,
    fun n _ => ⟨record .open_ { st := .running, held := n }, rfl, rfl, rfl⟩⟩
  have h : (match pool.accept 0 0 true with | .lost _ => true | _ => false) = true := by decide +kernel
  revert h
  cases pool.accept 0 0 true <;> simp

theorem witness_Nodes : (t0.recd 0 0).snap = none ∧
    (∀ e ∈ [(1, 0), (3, 1), (3, 0)], IsNode (record .open_ { st := .ready, snap := some (snap0 e.1 e.2) }) 0 0 e.1 (snap0 e.1 e.2)) ∧
    (∃ w t, Evaluates (record .open_ { st := .ready, snap := some (snap0 1 0) }) 0 0 (snap0 1 0) w t ∧ (w == 0) = true) ∧
    (∃ w t, Evaluates (record .open_ { st := .ready, snap := some (snap0 3 1) }) 0 0 (snap0 3 1) w t ∧
      decide (w < (snap0 3 1).nsucc) = true) ∧
    (∃ w t, Evaluates (record .open_ { st := .ready, snap := some (snap0 3 0) }) 0 0 (snap0 3 0) w t ∧
      decide ((snap0 3 0).nsucc ≤ w) = true) := by
  unfold IsNode Evaluates
  exact ⟨by decide +kernel, by decide +kernel, eval_of _ _ _ _ (fun w _ => w == 0) (by decide +kernel),
    eval_of _ _ _ _ (fun w _ => decide (w < (snap0 3 1).nsucc)) (by decide +kernel),
    eval_of _ _ _ _ (fun w _ => decide ((snap0 3 0).nsucc ≤ w)) (by decide +kernel)⟩

/-- A loop node that runs. -/
def looping (r : Rec) : State := record .open_ { r with st := .running, snap := some (snap0 2 0) }

theorem witness_Loops : IsNode (looping { bodyOut := true }) 0 0 2 (snap0 2 0) ∧ (snap0 2 0).itw = 0 ∧
    (((looping { bodyOut := true }).startNode 0 0).recd 0 0).bodyOut = true ∧
    (((looping {}).startNode 0 0).recd 0 0).bodyOut = false ∧ (((looping {}).startNode 0 0).recd 0 0).armBody = false ∧
    (∃ w t, ((looping {}).startNode 0 0).clearSched.evalWord 0 0 (snap0 2 0) = .ok w t ∧ (w == 0) = true) ∧
    (∀ st ∈ [0, 1], ((looping { bodyOut := true, bodyStatus := some st }).recd 0 0).bodyStatus = some st ∧
      ((looping { bodyOut := true, bodyStatus := some st }).recd 0 0).bodyOut = true) := by
  unfold IsNode
  exact ⟨by decide +kernel, by decide, by decide +kernel, by decide +kernel, by decide +kernel,
    eval_of _ _ _ _ (fun w _ => w == 0) (by decide +kernel), by decide +kernel⟩

/-- Job 1 wants a ring that is not free: 256 rings, of which ring 0 runs the thread of a job of lower priority. -/
def wanting (resv : Option Nat) (cs : List Copy) : State :=
  let prio : Snap := { snap0 0 0 with ctl := 2 ^ 20 + 256 * 2 ^ 23 }
  { t0 with
    copies := cs
    jobs := [(0, { st := .open_, key := 1, recs := [(0, { st := .running, snap := some (snap0 0 0) })] }),
      (1, { st := .open_, key := 2, recs := [(0, { st := .ready, resv := resv, eprio := 1, snap := some prio })] })] }

/-- The stage of job 1 in these states, and whether its one target is ring 0. -/
def stage1 (s : State) : Option Stage := s.stages.find? (fun u => u.j == 1 && u.i == 0)
def target0 (s : State) (u : Stage) : Bool := (s.parkTargets u).map (·.1) == [0]

theorem witness_Park : (t0.stages.find? (fun u => u.j == 1 && u.i == 0)) = none ∧
    (∀ resv ∈ [none, some 49, some 50], (stage1 (wanting resv [])).any (fun u => u.rc.st == .ready && u.rc.resv == resv &&
      target0 (wanting resv []) u && u.n.rmin == ((wanting resv []).freeFor (u.j, u.i)).length + 1) = true) ∧
    ((wanting (some 50) []).unstop (some 0)).parkable 0 = true ∧
    ((wanting (some 50) [{ core := 0, ch := 0, dst := 0, src := 0, len := 1, key := 1, pc := 0 }]).unstop (some 0)).parkable 0 = false ∧
    NoPark t0 ∧ ((t0.ring 0).thread = some th0 ∧ (t0.ring 0).chunks = [] ∧ (t0.core 0).stopping = none) ∧
    ∃ s : State, (s.ring 0).thread = some th0 ∧ (s.ring 0).chunks = [] ∧ (s.core 0).stopping = some .park ∧ s.quiet 0 = false := by
  unfold NoPark
  exact ⟨by decide +kernel, by decide +kernel, by decide +kernel, by decide +kernel, by decide +kernel, by decide +kernel,
    on { stopping := some .park, oreqs := [(0, false)] }, by decide +kernel⟩

/-- Job 0 has one ready stage that wants `rmin` rings or more, and whose last pass is long ago. -/
def ready (rmin : Nat) (rs : List Nat) : State :=
  { up id with
    rings := rs.map (fun r => (r, { withdrawn := true }))
    jobs := [(0, { st := .open_, key := 1, recs :=
      [(0, { st := .ready, snap := some { snap0 0 0 with ctl := 2 ^ 23 * rmin + 2 ^ 32 * 256 } })] })] }

/-- The thread of job 0 is parked on ring 0. -/
def parked0 : State :=
  { up id with
    rings := [(0, { key := 1, parked := some (t0.image 0 th0) })]
    jobs := [(0, { st := .open_, key := 1, recs := [(0, { st := .running, snap := some (snap0 0 0) })] })] }

/-- A running stage whose input queue holds an element, and no ring is left. -/
def hungry : State :=
  let n : Snap := { snap0 0 0 with ctl := 2 ^ 23 + 2 ^ 32 * 256 + 4096, qbind := [bootVa], node := [2 ^ 19, 0, 0] }
  { queue 1 0 0 with
    rings := (List.range 256).map (fun r => (r, { withdrawn := true }))
    jobs := [(0, { st := .open_, key := 1, root := bootTables, recs := [(0, { st := .running, snap := some n })] })] }

/-- A test of the first wanter of a state, when it is a stage. -/
def stageFirst (s : State) (p : Stage → Bool) : Bool :=
  match firstWanter s.wanters with
  | some (.stage u) => p u
  | _ => false

theorem witness_RingAssignment : t0.dev.bstep < 3 ∧ (up id).dev.bstep = 5 ∧ firstWanter State.reset.wanters = none ∧
    (match firstWanter parked0.wanters with
     | some (.thread r _ _) => r == 0 && parked0.ringFree r
     | _ => false) = true ∧
    stageFirst (ready 2 (List.range 255)) (fun u => u.rc.st == .ready && !u.rc.replays &&
      decide (0 < (ready 2 (List.range 255)).want u) && (((ready 2 (List.range 255)).freeFor (u.j, u.i)).length == 1) &&
      u.n.rmin == 2) = true ∧
    stageFirst (ready 1 (List.range 255)) (fun u => u.rc.st == .ready && !u.rc.replays &&
      decide (0 < (ready 1 (List.range 255)).want u) && ((ready 1 (List.range 255)).freeFor (u.j, u.i) == [255]) &&
      u.n.rmin == 1) = true ∧
    stageFirst hungry (fun u => u.rc.st == .running && !hungry.anyFree) = true ∧
    (match (ready 1 []).stages with
     | [u] => decide (0 < (ready 1 []).want u)
     | _ => false) = true ∧
    (∃ s : State, s.jobs = [] ∧ s.reports = [] ∧ s.dev.bstep = 5 ∧ NoPark s) := by
  refine ⟨by decide +kernel, by decide +kernel, by decide +kernel, by decide +kernel, by decide +kernel, by decide +kernel,
    by decide +kernel, by decide +kernel, { up id with jobs := [] }, rfl, rfl, rfl, by unfold NoPark; decide +kernel⟩

theorem witness_LaunchesAdvanceTheirRecords :
    (((Table.get t0.frq 31 {}).icore / 16 = 0) ∧ (State.reset.ring 0).thread = none ∧ (State.reset.core 0).handler = false ∧
      (State.reset.core 0).stopping = none ∧ (State.reset.core 0).wait = .none) ∧
    ((t0.ring 0).key = (t0.job 0).key ∧ (t0.recd 0 0).cap.mode = 0) ∧
    ((t0.ring 255).thread = none ∧ (t0.core (16 * 255)).handler = false ∧ (t0.core (16 * 255)).stopping = none ∧
      (t0.core (16 * 255)).wait = .none) ∧
    (∃ s : State, (s.ring 255).thread = none ∧ (s.core (16 * 255)).handler = true) ∧
    ((t0.ring 0).thread = some th0 ∧ (t0.ring 0).chunks = [] ∧ (t0.core 0).handler = false ∧ (t0.core 0).stopping = none ∧
      (t0.core 0).wait.atomic = false) ∧
    (∀ q ∈ [[], [(0, false)]], ∃ s : State, (s.ring 0).thread = some th0 ∧ (s.ring 0).chunks = [] ∧ (s.core 0).handler = false ∧
      (s.core 0).wait.atomic = false ∧ (s.core 0).stopping = some .sched ∧ s.quiet 0 = decide (q = []) ∧ (s.core 0).ctxbase = 0 ∧
      s.fab.pkts = [] ∧ Memory.wf s.mem = true) ∧
    (t0.recd th0.job th0.record).st ≠ .completing ∧
    ∃ s : State, (s.ring 0).thread = some th0 ∧ (s.recd th0.job th0.record).st = .completing :=
  ⟨by decide +kernel, by decide +kernel, by decide +kernel,
    ⟨{ State.reset with cores := [(16 * 255, { handler := true })] }, by decide +kernel⟩, by decide +kernel,
    fun q _ => ⟨on { stopping := some .sched, oreqs := q }, by decide +revert +kernel⟩,
    by decide +kernel, record .open_ { st := .completing }, by decide +kernel⟩

/-- The last chunk of `loop0` alone in its ring, on core 15. -/
def last (k : Chunk → Chunk) (c : Core) : State :=
  { State.reset with
    cores := [(15, c)]
    rings := [(0, { ring0 with forked := some loop0, chunks := [k { chunk 1 with slot := 15 }], head := 15 })] }

/-- Chunks 0 and 1 of `loop0`, and what core 1 holds of line 9. -/
def pair (ls : List (Nat × Line)) (b : List Bcast) (lo : List (Nat × Live)) : State :=
  { State.reset with
    cores := [(0, {}), (1, { l1 := ls })]
    rings := [(0, { ring0 with forked := some loop0, chunks := [chunk 0, chunk 1], bcasts := b, liveOuts := lo })] }

def version (er : BitVec 16) : Line := { st := .s 1, er := er, sw := 2 }
def bcast0 : Bcast := { from_ := 0, next := 1, line := 9, off := 120, data := List.replicate 8 7, scratch := false }

theorem witness_ChunksFollowTheirOrder :
    (∀ w ∈ [Wait.commitPoint, .deferred, .overflow], (((last id { wait := w }).ring 0).chunks.head?.map (·.slot.val)) = some 15 ∧
      ((last id { wait := w }).core 15).wait = w) ∧
    (LastChunk (last (fun k => { k with finished := true }) { wait := .commit }) 15 loop0
        { chunk 1 with slot := 15, finished := true } ∧ (chunk 1).idx + 1 = loop0.m) ∧
    (LastChunk (last id {}) 15 loop0 { chunk 1 with slot := 15 } ∧ (chunk 1).finished = false) ∧
    (∃ s : State, LastChunk s 15 loop0 { chunk 1 with slot := 15 } ∧ (s.core 15).wait = .leave pc0 (some (63, pc0))) ∧
    (∀ b ∈ [true, false], ((last (fun k => { k with restart := b }) {}).ring 0).chunkAt 15 =
      some { chunk 1 with slot := 15, restart := b }) := by
  unfold LastChunk
  exact ⟨by decide +kernel, by decide +kernel, by decide +kernel,
    ⟨last id { wait := .leave pc0 (some (63, pc0)) }, by decide +kernel⟩, by decide +kernel⟩

theorem witness_LiveOuts :
    (∀ l ∈ [live0, { live0 with vl := 1 }], ((pair [] [] [(0, l)]).ring 0).liveOuts = [(0, l)] ∧
      ((pair [] [] [(0, l)]).ring 0).chunks.find? (fun k => k.idx == 0 + 1) = some (chunk 1)) ∧
    ((chunk 1).restart = false ∧ (chunk 1).finished = false) ∧
    ((chunk 1).kept.vl = live0.vl ∧ (chunk 1).exX = 0 ∧ (chunk 1).exP = 0 ∧ (chunk 1).kept.vl ≠ { live0 with vl := 1 }.vl) := by
  decide +kernel

theorem witness_Broadcasts :
    ((pair [(9, version 0x8000)] [bcast0] []).ring 0).chunkAt 1 = some (chunk 1) ∧
    (pair [(9, version 0x8000)] [bcast0] []).line 1 9 = some (version 0x8000) ∧
    (pair [(9, version 0x4000)] [bcast0] []).line 1 9 = some (version 0x4000) ∧
    wordsOf 120 8 &&& 0x8000#16 ≠ 0 ∧ wordsOf 120 8 &&& 0x4000#16 = 0 ∧ (version 0).soft = false ∧
    ((version 0).sw.getLsbD (120 / 8) = false ∧ { version 0 with sw := 0x8000#16 }.sw.getLsbD (120 / 8) = true) := by
  decide +kernel

theorem witness_Versions : ((pair [(9, version 0)] [bcast0] []).ring 0).nextAfter 1 = none ∧
    (pair [] [bcast0] []).line 1 9 = none ∧ ((pair [] [] []).ring 0).bcasts = [] ∧
    ((pair [(9, version 0)] [] []).ring 0).isSpec (slotOf 1) = true ∧
    (pair [(9, ({} : Line))] [] []).line 1 9 = some ({} : Line) ∧ ({} : Line).st = .n := by
  decide +kernel

theorem witness_loadResponse : ∀ e ∈ [(1, none), (64, some (64, false))],
    (((on { oreqs := [(0, true), (e.1, false)] }).core 0).oreqs.filter (fun q => q.1 != 0)).find? (fun q => 64 ≤ q.1) = e.2 := by
  decide +kernel

theorem witness_version : IsVersion (version 0) := ⟨1, rfl⟩

/-! ### Coherence, copies and errors -/

/-- A home entry of line 9, and what core 5 holds of it. -/
def home (d : Dir) (ls : List (Nat × Line)) : State := { State.reset with dirs := [(9, d)], cores := [(5, { l1 := ls })] }

/-- Line 9 as a core may hold it plainly. -/
def held9 (coh : LCoh) : Line := { coh := coh }

theorem witness_CoherenceFollowsItsTables :
    (∀ st ∈ [DSt.u, .p [5], .p [1, 2, 3], .p [1, 2, 3, 4], .c 1, .x 4095], ∀ k ∈ [ReqKind.getS, .getX, .upg],
      Asks (home { st := st } []) 5 9 k ∧ Idle (home { st := st } []) 5 9) ∧
    (∀ st ∈ [DSt.p [5], .p [1, 5]], Asks (home { st := st } [(9, held9 .sh)]) 5 9 .upg ∧
      Idle (home { st := st } [(9, held9 .sh)]) 5 9) ∧
    (Asks (home { busy := some (6, .getX) } []) 5 9 .getS ∧
      ((home { busy := some (6, .getX) } []).dir 9).busy ≠ none) ∧
    (Asks (home { records := [6] } []) 5 9 .getS ∧
      ((home { records := [6] } []).dir 9).records.filter (· != 5) ≠ []) ∧
    (home {} []).line 5 9 = none ∧
    (∀ m ∈ [message .inval 6 7 9, message (.fwd true) 5 7 9], ∃ s : State, s.line 5 9 = some (held9 .sh) ∧
      (s.dir 9).busy = some (7, .getX) ∧ m ∈ s.msgs) ∧
    (home {} []).msgs = [] ∧
    (∀ d ∈ [{ busy := some (6, .getX) }, { st := .c 1 }, { st := .p [5] }, { st := .x 5 }], ∀ coh ∈ [LCoh.sh, .own],
      (home d [(9, held9 coh)]).line 5 9 = some (held9 coh)) := by
  unfold Asks Idle
  refine ⟨?_, ?_, ?_, ?_, by decide +kernel,
    fun m _ => ⟨{ home { busy := some (7, .getX) } [(9, held9 .sh)] with msgs := [m] }, rfl, rfl,
      List.mem_singleton.2 rfl⟩, by decide +kernel, by decide +kernel⟩
  · intro st _ k _
    have e : (home { st := st } []).dir 9 = { st := st } := rfl
    rw [e]
    refine ⟨⟨by intro p h; simp [home, State.reset] at h, by simp, by simp, ?_⟩, by simp, by simp⟩
    exact every_of_none (by decide +revert +kernel)
  · intro st _
    have e : (home { st := st } [(9, held9 .sh)]).dir 9 = { st := st } := rfl
    rw [e]
    refine ⟨⟨by intro p h; simp [home, State.reset] at h, by simp, by simp, ?_⟩, by simp, by simp⟩
    exact every (a := held9 .sh) rfl (by decide)
  · refine ⟨⟨by intro p h; simp [home, State.reset] at h, by decide +kernel, ?_, every_of_none (by decide +kernel)⟩,
      by decide +kernel⟩
    exact every (a := (6, ReqKind.getX)) (by decide +kernel) (by decide)
  · refine ⟨⟨by intro p h; simp [home, State.reset] at h, by decide +kernel, every_of_none (by decide +kernel),
      every_of_none (by decide +kernel)⟩, by decide +kernel⟩

/-- A message about line 9 is on its way for core 6, and core 5 holds the line so. -/
def arriving (k : MsgKind) (to_ : Nat) (ls : List (Nat × Line)) (ps : List Pend) : State :=
  { home {} ls with msgs := [message k to_ 6 9], pends := ps }

/-- Core 5 runs a chunk that is not the oldest, beside core 4, and holds its version of line 9. -/
def versioned (for_ : Nat) : State :=
  { State.reset with
    cores := [(5, { l1 := [(9, version 1)] })], msgs := [message .inval 5 for_ 9]
    rings := [(0, { ring0 with forked := some loop0, chunks := [{ chunk 0 with slot := 4 }, { chunk 1 with slot := 5 }] })] }

def soft9 : Line := { soft := true, sdirty := 1, data := 7 }

theorem witness_MessagesOfTheProtocolArrive :
    (Arrives (arriving .inval 5 [] []) (message .inval (5 : Fin 4096) (6 : Fin 4096) 9) [] ∧
      (arriving .inval 5 [] []).line 5 9 = none) ∧
    (Arrives (arriving .inval 5 [(9, {})] []) (message .inval 5 6 9) [] ∧ (arriving .inval 5 [(9, {})] []).line 5 9 = some {}) ∧
    ((versioned 4).line 5 9 = some (version 1) ∧ (version 1).er ≠ 0 ∧ ((versioned 4).ring 0).isSpec (slotOf 5) = true ∧
      (versioned 4).isSibling 5 (some 4) = true ∧ Arrives (versioned 4) (message .inval 5 4 9) []) ∧
    ((versioned 99).isSibling 5 (some 99) = false ∧ Arrives (versioned 99) (message .inval 5 99 9) []) ∧
    (∀ x ∈ [true, false], ∀ ls ∈ [[], [(9, ({} : Line))]], Arrives (arriving (.fwd x) 5 ls []) (message (.fwd x) 5 6 9) []) ∧
    (∀ need ∈ [none, some 1, some 2], let p : Pend := { core := 6, line := 9, own := true, got := true, need := need }
      (arriving .ack 5 [] [p]).pends.find? (fun p => p.core == 6 && p.line == 9) = some p ∧
      ((arriving .ack 5 [] [p]).dir 9).queue = [] ∧ Arrives (arriving .ack 5 [] [p]) (message .ack 5 6 9) [] ∧
      Arrives (arriving (.data 0 true) 6 [] [p]) (message (.data 0 true) 6 6 9) []) ∧
    (State.reset.msgs = [] ∧ State.reset.cores = [] ∧ Table.get? State.reset.splits (realLine 9) = none ∧ (State.reset.dir 9).contributors = .u ∧ 9 < 2 ^ 73 ∧
      ((home { contributors := .p [3] } []).dir 9).contributors ≠ .u) ∧
    (soft9.key ≠ 4096 ∧ 0 < soft9.sdirty.toNat ∧ soft9.sdirty.toNat < 2 ^ 64 ∧ ((home {} [(9, soft9)]).filt 18).bi = none ∧
      ((home {} [(9, soft9)]).filt 18).st = .n ∧ ((home {} [(9, soft9)]).filt 19).bi = none ∧
      ((home {} [(9, soft9)]).filt 19).st = .n ∧ (home {} [(9, soft9)]).backs = [] ∧
      ∃ s : State, s.line 5 9 = some soft9 ∧ (s.filt 18).bi = some true) ∧
    ((home {} [(9, soft9)]).line 5 9 = some soft9 ∧ soft9.soft = true ∧ soft9.sdirty ≠ 0 ∧ soft9.st = .n ∧
      Memory.wf (home {} [(9, soft9)]).mem = true ∧ (home {} [(9, { soft9 with sdirty := 0 })]).line 5 9 =
        some { soft9 with sdirty := 0 }) ∧
    (Arrives (arriving .drain 5 [] []) (message .drain 5 6 9) [] ∧ Arrives (arriving .drainAck 5 [] []) (message .drainAck 5 6 9) []) ∧
    (∃ s : State, Arrives s (message .drainAck 5 6 9) [] ∧ (s.dir 9).busy = some (6, .getS) ∧ (s.dir 9).st = .u) ∧
    (∃ s : State, Arrives s (message .drainAck 5 6 9) [message .drain 4 6 9]) ∧
    (Table.get? (t0.core 5).partials 9 = none ∧ ∃ s : State, Table.get? (s.core 5).partials 9 = some (0, 7)) ∧
    (t0.ring 255).misses = [] ∧
    (∀ v ∈ [0#64, 0x8000000000000000#64], ∃ s : State, (s.ring 0).misses = [tag0] ∧ (s.ring 0).key = tag0.key ∧
      (s.ring 0).thread ≠ none ∧ (s.ring 0).smev = v) ∧
    (∃ s : State, (s.ring 0).misses = [tag0] ∧ (s.ring 0).key ≠ tag0.key) ∧
    ∃ (s : State) (p : Parked), (s.ring 0).misses = [tag0] ∧ (s.ring 0).key = tag0.key ∧ (s.ring 0).thread = none ∧
      (s.ring 0).parked = some p := by
  unfold Arrives
  refine ⟨by decide +kernel, by decide +kernel, by decide +kernel, by decide +kernel, by decide +kernel, by decide +kernel,
    by decide +kernel, ⟨by decide +kernel, by decide +kernel, by decide +kernel, by decide +kernel, by decide +kernel,
      by decide +kernel, by decide +kernel, by decide +kernel,
      { home {} [(9, soft9)] with filter := [(18, { bi := some true })] }, by decide +kernel⟩, by decide +kernel, by decide +kernel,
    ⟨{ arriving .drainAck 5 [] [] with dirs := [(9, { busy := some (6, .getS) })] }, by decide +kernel⟩,
    ⟨{ arriving .drainAck 5 [] [] with msgs := [message .drainAck 5 6 9, message .drain 4 6 9] }, by decide +kernel⟩,
    ⟨by decide +kernel, { home {} [] with cores := [(5, { partials := [(9, (0, 7))] })] }, by decide +kernel⟩,
    by decide +kernel, ?_, ⟨{ t0 with rings := [(0, { ring0 with key := 2, misses := [tag0] })] }, by decide +kernel⟩,
    { t0 with rings := [(0, { key := 1, misses := [tag0], parked := some (t0.image 0 th0) })] }, t0.image 0 th0, by decide +kernel⟩
  intro v h
  simp only [List.mem_cons, List.not_mem_nil, or_false] at h
  rcases h with rfl | rfl
  · exact ⟨{ t0 with rings := [(0, { ring0 with misses := [tag0] })] }, by decide +kernel⟩
  · exact ⟨{ t0 with rings := [(0, { ring0 with misses := [tag0], smev := 0x8000000000000000#64 })] }, by decide +kernel⟩

/-- A copy of core 0's channel 3 within its scratchpad. -/
def copy0 (len : Nat) : Copy := { core := 0, ch := 3, dst := pad0 + 0x40000 - BitVec.ofNat 64 len, src := pad0, len := len, key := 1, pc := pc0 }
def copying (c : Core) (k : Copy) : State :=
  let s := on c
  { s with copies := [k], dev := { s.dev with bstep := 5 } }

theorem first_of (s : State) (k : Copy) (h : s.copies = [k] ∧ k.core = (0 : Fin 4096).val ∧ k.ch = (3 : Fin 4).val ∧ k.performed = false ∧
    k.lost = none ∧ k.pos = 0 ∧ k.regs = none ∧ k.deny = none ∧ k.flying = 0 ∧
    Table.get? s.cores (hartOf (0 : Fin 4096).val (3 : Fin 4).val) = none ∧ s.fab.pkts = []) : FirstCopy s 0 3 k [] := by
  obtain ⟨h1, h2, h3, h4, h5, h6, h7, h8, h9, h10, h11⟩ := h
  exact ⟨h1, h2, h3, h4, h5, h6, h7, h8, h9, h10, by simp [h11]⟩

theorem witness_Copies : t0.copies = [] ∧ (¬ HartsReady t0 ∧ HartsReady (copying {} (copy0 1))) ∧
    (∀ len ∈ [0, 1, 16], FirstCopy (copying {} (copy0 len)) 0 3 (copy0 len) []) ∧
    (∀ len ∈ [1, 2, 4, 8, 16], OnPadOf 0 (copy0 len).dst.toNat len ∧ OnPadOf 0 (copy0 len).src.toNat len) ∧
    (((copying {} (copy0 1)).core 0).cpmask.getLsbD 0 = true ∧ ((copying {} (copy0 1)).ring 0).chunks = []) ∧
    (FirstCopy (copying { cpmask := 0xFFFFFFFE#32 } (copy0 1)) 0 3 (copy0 1) [] ∧
      ((copying { cpmask := 0xFFFFFFFE#32 } (copy0 1)).core 0).cpmask.getLsbD 0 = false ∧
      (Table.get (copying { cpmask := 0xFFFFFFFE#32 } (copy0 1)).frq 0 {}).en = false ∧
      Alone (copying { cpmask := 0xFFFFFFFE#32 } (copy0 1)) 0 th0 ∧
      ((copying { cpmask := 0xFFFFFFFE#32 } (copy0 1)).ring 0).parked = none) ∧
    ({ copy0 1 with deny := some (5, 0) }.deny = some (5, 0) ∧ { { copy0 1 with deny := some (5, 0) } with deny := none } = copy0 1) ∧
    ∃ s : State, s.copies = [{ copy0 1 with performed := true }] := by
  unfold HartsReady OnPadOf Alone
  refine ⟨by decide +kernel, by decide +kernel, ?_, by decide +kernel, by decide +kernel,
    ⟨first_of _ _ (by decide +kernel), by decide +kernel⟩, by decide +kernel, copying {} { copy0 1 with performed := true }, rfl⟩
  intro len h
  simp only [List.mem_cons, List.not_mem_nil, or_false] at h
  rcases h with rfl | rfl | rfl <;> exact first_of _ _ (by decide +kernel)

/-- A thread that waits with its queue's descriptor at `bootVa`. -/
def waitingOn (pushed popped w : Nat) (o : Wait) : State :=
  let s := queue pushed popped w
  { s with cores := [(0, { xs [(2, wd bootVa)] with wait := o })] }

def qpushOp : QPushF := { a := 2, b := 3, gd := un, sc := 0 }
def qpopOp : TriF := { d := 1, a := 2, b := 3, gd := un, sc := 0 }

/-- A thread in a region, whose log ends at a unit; what a rollback of the region undoes. -/
def rolling (g : Region) (tail : Nat) : State := on { regions := [g], logTail := tail }

def undone (s : State) : Bool × State :=
  let d := dropRegions s 0 1
  d.undo 0 1 (d.logStarts 0 0 (s.core 0).logTail ((s.core 0).logTail + 1))

/-- A region that is unrecoverable or has used up its attempts escalates; another rolls back, which fails where a logged line has no
translation any more. -/
theorem witness_Rollback : (∀ g ∈ [{ region0 with unrec := true }, { region0 with retry := 1 }],
      ((rolling g 0).core 0).regions.reverse[0]? = some g ∧ (g.unrec = true ∨ g.retry = g.limit)) ∧
    (∀ tail ∈ [0, 1], ((rolling region0 tail).core 0).regions.reverse[0]? = some region0 ∧ region0.unrec = false ∧
      region0.retry ≠ region0.limit ∧ (undone (rolling region0 tail)).1 = decide (tail = 0) ∧
      ((undone (rolling region0 tail)).2.core 0).handler = false) ∧
    ((t0.ring (0 / 16)).thread = some th0 ∧ ∃ s : State, (s.core 0).stopping ≠ none) :=
  ⟨by decide +kernel, by decide +kernel, by decide +kernel, on { stopping := some .park }, by decide +kernel⟩

theorem witness_CopiesWaitsAndErrorsAreSeenTo :
    (∀ n ∈ [0, 1], ∃ s : State, (s.core 0).wait = .drain { a := 3, gd := un, sc := 0 } ∧ (s.core 0).issued.get (3 : Fin 4) = n ∧
      (s.core 0).completed.get (3 : Fin 4) = 0 ∧ (s.core 0).stopping = none ∧ Alone s 0 th0 ∧ (s.ring 0).forked = none ∧
      (s.core 0).l1 = []) ∧
    (∃ s : State, (s.core 0).wait = .drain { a := 3, gd := un, sc := 0 } ∧ (s.core 0).stopping = some .sched) ∧
    (∀ cs ∈ [[], [copy0 1]], ∃ s : State, (s.core 0).wait = .exit { gd := un, sc := 0 } ∧ s.copies = cs ∧ s.keyOf 0 = 1 ∧
      (s.core 0).stopping = none) ∧
    (∀ b ∈ [rbFull, { rbFull with head := 128 }], ∃ s : State, (s.core 0).wait = .mwait { d := 1, a := 3, gd := un } ∧ s.buf 0 3 = b) ∧
    (∀ n ∈ [1, 2], ((waitingOn n 0 0 (.qpush qpushOp)).waitedQueue 0 2).map (fun q => (q.occ, q.cap)) = some (n, 2)) ∧
    (∀ w ∈ [0, 1], ∀ n ∈ [0, 1], ((waitingOn n 0 w (.qpop qpopOp 0 false)).waitedQueue 0 2).map (fun q => (q.occ, q.closed)) =
      some (n, w == 1)) ∧
    (t0.prefs = [] ∧ ∀ len ∈ [1, 128], ∃ p : Pref, p.start.toNat / 2 ^ 56 = 0xFE ∧ p.start.toNat % 128 = 0 ∧ p.len.toNat = len) ∧
    (t0.participants 0 0 3 31 = [] ∧ ∃ (s : State) (th : Thread), s.participants 0 0 3 0 = [0] ∧ s.parkedOf 0 0 = [] ∧
      (s.ring 0).thread = some th ∧ th.syncs.get (syncIx 3) = 1 ∧ Table.get (s.recd 0 0).episodes (epKey 3 0) 0 = 0 ∧
      s.fab.pkts = [] ∧ (s.ring 0).chunks = [] ∧ (s.ring 0).forked = none ∧ (s.core 0).wait = .ssync 3 1 ∧ (s.core 0).l1 = []) ∧
    (∃ s : State, (s.core 0).lret.getLsbD 63 = true) ∧
    (EnoughLanes (12 * 0 + 0x0FFF#64) ∧ (t0.core 4095).lret.getLsbD 11 = false ∧ (t0.core 4095).withdrawn = false) ∧
    (¬ EnoughLanes 0x1FFF#64) ∧
    (∃ s : State, (s.core 0).withdrawn = true) ∧ ((t0.core 1).scalarFails = 0 ∧ t0.runsOn 1 = false ∧ (t0.core 1).withdrawn = false) ∧
    (∃ s : State, (s.core 0).withdrawn = false ∧ (s.core 0).scalarFails = 1 ∧ (s.ring 0).thread = none) ∧
    (Alone t0 0 th0 ∧ (t0.core 0).handler = false ∧ (t0.core 0).regions = [] ∧ (t0.core 0).stopping = none) ∧
    (Alone (rolling region0 0) 0 th0 ∧ ((rolling region0 0).core 0).handler = false ∧ ((rolling region0 0).core 0).regions ≠ []) ∧
    (∃ g : Chunk, ((forked [{ chunk 0 with restarts := 2 }] {}).ring 0).chunkAt (slotOf 0) = some g ∧ g.repairable = true ∧
      g.restarts = 2 ∧ ((forked [{ chunk 0 with restarts := 2 }] {}).core 0).handler = false ∧
      ((forked [{ chunk 0 with restarts := 2 }] {}).core 0).stopping = none) ∧
    (t0.core 0).icache = [] ∧ ∃ s : State, ∃ e ∈ (s.core 0).icache, e.1 % 2 ^ 45 = 9 := by
  unfold EnoughLanes Alone
  refine ⟨?_, ⟨on { wait := .drain { a := 3, gd := un, sc := 0 }, stopping := some .sched }, by decide +kernel⟩, ?_, ?_,
    by decide +kernel, by decide +kernel, ⟨by decide +kernel, ?_⟩, ⟨by decide +kernel, ?_⟩,
    ⟨on { lret := 0x8000000000000000 }, by decide +kernel⟩, by decide +kernel, by decide +kernel,
    ⟨on { withdrawn := true }, by decide +kernel⟩, by decide +kernel,
    ⟨{ State.reset with cores := [(0, { scalarFails := 1 })] }, by decide +kernel⟩, by decide +kernel, by decide +kernel,
    ⟨{ chunk 0 with restarts := 2 }, by decide +kernel⟩, by decide +kernel, on { icache := [(9, [])] }, (9, []), by decide +kernel⟩
  · intro n h
    simp only [List.mem_cons, List.not_mem_nil, or_false] at h
    rcases h with rfl | rfl
    · exact ⟨on { wait := .drain { a := 3, gd := un, sc := 0 } }, by decide +kernel⟩
    · exact ⟨on { wait := .drain { a := 3, gd := un, sc := 0 }, issued := Vector.replicate 4 1 }, by decide +kernel⟩
  · exact fun cs _ => ⟨{ on { wait := .exit { gd := un, sc := 0 } } with copies := cs }, rfl, rfl, rfl, rfl⟩
  · exact fun b _ => ⟨on { wait := .mwait { d := 1, a := 3, gd := un }, rb := Vector.replicate 4 b }, rfl, rfl⟩
  · intro len h
    simp only [List.mem_cons, List.not_mem_nil, or_false] at h
    rcases h with rfl | rfl
    · exact ⟨{ core := 0, q := 0, start := pad0, len := 1, key := 1 }, by decide +kernel⟩
    · exact ⟨{ core := 0, q := 0, start := pad0, len := 128, key := 1 }, by decide +kernel⟩
  · exact ⟨{ on { wait := .ssync 3 1 } with rings := [(0, { ring0 with thread := some { th0 with syncs := Vector.replicate 3 1 } })] },
      { th0 with syncs := Vector.replicate 3 1 }, by decide +kernel⟩

/-! ### The machine -/

theorem witness_EncodedInstructionsDecodeToThemselves : ∃ i ws, Instr.wf i = true ∧ i ≠ .padWord ∧ encode i = some ws ∧
    24 + 4 * ws.length ≤ 32 := ⟨.nop { gd := un }, [0x000000C0, 0], by decide +kernel⟩

/-- `li x1, 1`, and two words of zeros, placed at `bootVa`. -/
def placed : State := placeWord State.reset 64 0x0000000148000440
def zeros : State := placeWord State.reset 64 0

/-- `vmul v1, v2, v3` placed at `bootVa`, while a `cpyv` has still to transfer v1. -/
def interlocked : State :=
  { placeWord State.reset 64 0x000C088000C20584 with
    copies := [{ core := 0, ch := 0, dst := 0, src := 0, len := 512, key := 1, pc := 0, regs := some (1, 1, false) }] }

/-- The instruction that a core would take in its turn, and whether an interlock holds it. -/
def fetched (s : State) (c : Nat) : Option (Decoded × Bool) :=
  match (inTurn { s.tick with turns := [] } c).fetch with
  | .bytes bs v =>
      let i := decode (v.pc.toNat % 32) bs
      some (i, match i with
        | .ok i _ => v.interlocks c i
        | _ => false)
  | _ => none

/-- A turn is due while the clocks are stopped. -/
def stopped (t : Turn) : State := { t0 with turns := [t], dev := { t0.dev with clocksOn := false } }

theorem witness_AStepRunsTheDecodedInstruction :
    (placed.dev.clocksOn = true ∧ placed.turns = Turn.core 0 :: [] ∧ placed.canIssue 0 = true ∧
      fetched placed 0 = some (.ok (.li { d := 1, imm := 1, gd := always }) 8, false)) ∧ fetched zeros 0 = some (.illegal 5, false) ∧
    fetched interlocked 0 =
      some (.ok (.vmul { d := 1, a := 2, b := 3, ca := true, cb := false, ty := .i32, gd := always }) 8, true) ∧
    (∀ t ∈ [Turn.core 0, .deliver 0, .event .thermalTrip, .event .powerOff], (stopped t).dev.clocksOn = false ∧ (stopped t).turns = [t]) ∧
    (alwaysOn (stopped (.core 0)).dev .thermalTrip = false ∧ alwaysOn (stopped (.core 0)).dev .powerOff = true) ∧
    ((mapped {}).turns = [] ∧ (mapped {}).pick = some 0 ∧ (mapped {}).dev.clocksOn = true) ∧
    (∃ s : State, s.turns = Turn.event .thermalTrip :: [] ∧ s.dev.clocksOn = true) ∧
    (match (placed.place placed.who 4 placed.pc.toNat 4) with
     | (v, .ok (.mem a)) => (Table.get? (v.core placed.cur).icache (a.ln + 2 ^ 45 * a.key)).isNone && (v.barred v.who a.ln).isNone &&
        (match v.available a.tier (128 * a.ln) 128 false with
         | (none, w) => w.poison == [] && w.cores.all (fun e => (Table.get? e.2.l1 a.ln).isNone)
         | _ => false)
     | _ => false) = true ∧
    (∃ s : State, s.turns = Turn.core 0 :: [] ∧ s.canIssue 0 = false ∧ s.dev.clocksOn = true) :=
  ⟨by decide +kernel, by decide +kernel, by decide +kernel, by decide +kernel, by decide +kernel, by decide +kernel,
    ⟨{ t0 with turns := [.event .thermalTrip] }, by decide +kernel⟩,
    by decide +kernel, { State.reset with turns := [.core 0], dev := { clocksOn := true } }, by decide +kernel⟩

theorem witness_EveryStepKeepsTheMemory : State.Inv placed ∧ (match step placed with | .next _ => true | _ => false) = true := by
  unfold State.Inv
  decide +kernel

/-! ### One step: the worked fragment after R361 -/

def corners : State := on (xs [(25, 0xFFFFFFFF80000000), (8, 0xFFFFFFFFFFFFFFFF)])
def div9 : Instr := .div { d := 9, a := 25, b := 8, ty := .i32, gd := un }

theorem test_div_overflow : (after div9 corners).x 9 = 0xFFFFFFFF80000000 ∧ (after div9 corners).me.fflags = 4 := by
  decide +kernel

theorem test_div_byZero : (after (.div { d := 10, a := 25, b := 0, ty := .i32, gd := un }) corners).x 10 = 0xFFFFFFFFFFFFFFFF ∧
    (after (.div { d := 10, a := 25, b := 0, ty := .i32, gd := un }) corners).me.fflags = 2 := by decide +kernel

theorem test_rem_byZero : (after (.rem { d := 11, a := 25, b := 0, ty := .i32, gd := un }) corners).x 11 = 0xFFFFFFFF80000000 := by
  decide +kernel

/-- With the overflow enable set, the `div` writes x9 and then takes trap 0x0D. -/
theorem test_div_trap :
    let t := after div9 (on { (xs [(25, 0xFFFFFFFF80000000), (8, 0xFFFFFFFFFFFFFFFF)]) with tren := 4, tvec := 0x40 })
    t.x 9 = 0 ∧ t.me.x.get 9 = 0xFFFFFFFF80000000 ∧ t.me.tcause = 0x0D ∧ t.me.tmask = 1 ∧ t.me.tepc = pc0 + 8 ∧
      t.me.pc = 0x40 ∧ t.me.handler = true := by decide +kernel

/-- A coherent word at `bootVa + 0x100` that holds 41. -/
def ticket : State :=
  let s := mapped (xs [(24, wd (bootVa + 0x100)), (26, 1), (9, 0xFFFFFFFF80000000)])
  { s with mem := Memory.writeN s.mem (bootTables + 0x10100) 8 41 }

theorem test_amoadd_ticket :
    let t := after (.amoadd { d := 12, a := 24, b := 26, ty := .i64, acq := true, rel := false, sc := 5, gd := un }) ticket
    t.x 12 = 0x29 ∧ Memory.readN t.mem (bootTables + 0x10100) 8 = 0x2A := by decide +kernel

theorem test_st_release : Memory.readN (after (.st { a := 24, b := 9, imm := 8, ty := .i64, rel := true, sc := 5, gd := un })
    ticket).mem (bootTables + 0x10108) 8 = 0xFFFFFFFF80000000 := by decide +kernel

theorem test_ret : (after (.ret { a := 63, gd := un }) (on (xs [(63, 0x7000)]))).pc = 0x7000 := by decide +kernel

/-! ### Scalar instructions -/

/-- The examples of R327 and R329. -/
theorem test_ext : (after (.ext { d := 1, a := 2, b := 3, ty := .i8, gd := un }) (on (xs [(2, 0x9A00), (3, 8)]))).x 1 =
    0xFFFFFFFFFFFFFF9A := by decide +kernel

theorem test_lih : (after (.lih { d := 5, a := 5, imm := 0x01234567, gd := un }) (on (xs [(5, 0xFFFFFFFF89ABCDEF)]))).x 5 =
    0x0123456789ABCDEF := by decide +kernel

theorem test_add_wraps : (after (.add { d := 1, a := 2, b := 3, ty := .i8, gd := un }) (on (xs [(2, 127), (3, 1)]))).x 1 =
    0xFFFFFFFFFFFFFF80 := by decide +kernel

theorem test_adds_clamps :
    let t := after (.adds { d := 1, a := 2, b := 3, ty := .i8, gd := un }) (on (xs [(2, 127), (3, 1)]))
    t.x 1 = 127 ∧ t.me.fflags = 4 := by decide +kernel

theorem test_mulh_signed : (after (.mulh { d := 1, a := 2, b := 2, ty := .i8, gd := un }) (on (xs [(2, 0x80)]))).x 1 = 64 ∧
    (after (.mulh { d := 1, a := 2, b := 3, ty := .n8, gd := un }) (on (xs [(2, 0x80), (3, 0xFF)]))).x 1 = 127 := by
  decide +kernel

theorem test_shifts : (after (.sra { d := 1, a := 2, b := 3, ty := .n8, gd := un }) (on (xs [(2, 0x80), (3, 9)]))).x 1 = 0xC0 ∧
    (after (.srl { d := 1, a := 2, b := 3, ty := .i8, gd := un }) (on (xs [(2, 0x80), (3, 8)]))).x 1 = 0xFFFFFFFFFFFFFF80 ∧
    (after (.rol { d := 1, a := 2, b := 3, ty := .n8, gd := un }) (on (xs [(2, 0x81), (3, 1)]))).x 1 = 3 := by decide +kernel

theorem test_counts : (after (.clz { d := 1, a := 2, ty := .n16, gd := un }) (on (xs [(2, 0x10001)]))).x 1 = 15 ∧
    (after (.ctz { d := 1, a := 2, ty := .n16, gd := un }) (on (xs [(2, 0x10000)]))).x 1 = 16 := by decide +kernel

/-- x0 discards a write, and a false guard leaves x1. -/
theorem test_zero_and_guard : (after (.li { d := 0, imm := 5, gd := un }) t0).x 0 = 0 ∧
    (after (.li { d := 1, imm := 5, gd := hid }) t0).x 1 = 0 := by decide +kernel

/-- IEEE 754: 1 + 1 = 2 in binary32, 1 / 3 rounds to 0x3EAAAAAB and is inexact, and 65520 in binary16 overflows. -/
theorem test_float : (after (.fadd { d := 1, a := 2, b := 2, ty := .f32, rm := 0, gd := un }) (on (xs [(2, 0x3F800000)]))).x 1 =
      0x40000000 ∧
    (let t := after (.fdiv { d := 1, a := 2, b := 3, ty := .f32, rm := 0, gd := un }) (on (xs [(2, 0x3F800000), (3, 0x40400000)]))
     t.x 1 = 0x3EAAAAAB ∧ t.me.fflags = 16) := by decide +kernel

theorem test_fcvt : (after (.fcvt { d := 1, a := 2, ty := .f16, src := .f32, rm := 0, gd := un })
      (on (xs [(2, 0x477FF000)]))).x 1 = 0x7C00 ∧
    (after (.fcvti { d := 1, a := 2, ty := .n8, src := .f32, rm := 0, gd := un }) (on (xs [(2, 0xBF800000)]))).x 1 = 0 := by
  decide +kernel

/-- The call's return address is read before and written after; a branch counts words from its own address. -/
theorem test_call : (after (.call { r := 63, off := 16 }) t0).pc = pc0 + 64 ∧
    (after (.jalr { d := 63, a := 63, gd := un }) (on (xs [(63, 0x7000)]))).pc = 0x7000 := by decide +kernel

theorem test_blt : (after (.blt { a := 1, b := 2, off := 0xFFFFFFFB#32 }) (on (xs [(1, 0xFFFFFFFFFFFFFFFF)]))).pc = pc0 - 20 ∧
    (after (.bltu { a := 1, b := 2, off := 0xFFFFFFFB#32 }) (on (xs [(1, 0xFFFFFFFFFFFFFFFF)]))).pc = pc0 + 8 := by decide +kernel

/-- Scratchpad bytes are little-endian, and `.i8` loads extend their sign. -/
theorem test_ld_sign :
    let s := { on (xs [(2, pad0)]) with mem := Memory.writeN [] pad0.toNat 2 0x80FF }
    (after (.ld { d := 1, a := 2, imm := 1, ty := .i8, acq := false, fr := false, sc := 0, gd := un }) s).x 1 =
      0xFFFFFFFFFFFFFF80 := by decide +kernel

theorem test_stp : Memory.readN (after (.stp { a := 2, b := 4, imm := 0, rel := false, sc := 0, gd := un })
    (on (xs [(2, pad0), (4, 1), (5, 2)]))).mem pad0.toNat 16 = 2 * 2 ^ 64 + 1 := by decide +kernel

theorem test_amocas_fails :
    let t := after (.amocas { d := 1, a := 24, b := 26, c := 9, ty := .i64, acq := false, rel := false, sc := 0, gd := un }) ticket
    t.x 1 = 41 ∧ Memory.readN t.mem (bootTables + 0x10100) 8 = 41 := by decide +kernel

theorem test_sysw_frm : (after (.sysw { a := 1, idx := 0x004, gd := un }) (on (xs [(1, 7)]))).me.frm = 0 ∧
    (after (.sysr { d := 1, idx := 0x01, gd := un }) t0).x 1 = 64 := by decide +kernel

/-! ### Vectors -/

/-- A vector register whose elements of `w` bits are these. -/
def vec (w : Nat) (l : List Nat) : BitVec 4096 := BitVec.ofNat 4096 (l.foldr (fun e a => a * 2 ^ w + e) 0)

/-- A thread with v1 and v2 given, `vl` elements of the width that `vtype` says. -/
def vst (ew vl : Nat) (a b : List Nat) (c : Core) : State :=
  let w := 8 * 2 ^ ew
  on { c with vl := vl, vtype := wd (16 * ew), v := ((Vector.replicate 64 0).set 1 (vec w a)).set 2 (vec w b) }

/-- R368: 200 elements of 32 bits are cut to 128; with a lane retired, to 126. -/
theorem test_setvl : (after (.setvl { d := 6, a := 0, imm := 200, gd := un }) (on { vtype := 0x20 })).x 6 = 128 ∧
    (after (.setvl { d := 6, a := 0, imm := 200, gd := un }) (on { vtype := 0x20, lret := 0x200 })).me.vl = 126 := by
  decide +kernel

/-- R372: 150 elements take strips of 128 and 22, and the first index is 0, the second 128. -/
theorem test_strips :
    let s := after (.vloop { d := 7, a := 8, imm := 9, gd := un }) (on { (xs [(8, 150)]) with vtype := 0x20 })
    let t := after (.vlend { gd := un }) s
    s.me.vl = 128 ∧ s.x 7 = 0 ∧ t.me.vl = 22 ∧ t.x 7 = 128 ∧ t.pc = pc0 + 12 ∧
      (after (.vlend { gd := un }) t).me.strip.act = false := by decide +kernel

/-- Elements at or past `vl` keep their value. -/
theorem test_vadd : element ((after (.vadd { d := 2, a := 1, b := 1, ca := false, cb := false, ty := .n8, gd := un })
      (vst 0 2 [200, 3, 5] [0, 0, 9] {})).me.v.get 2) 24 0 = 200 * 2 % 256 + 6 * 256 + 9 * 65536 := by decide +kernel

theorem test_vsubImm : element ((after (.vsubsImm { d := 2, a := 1, imm := 5, ca := false, ty := .n8, gd := un })
      (vst 0 1 [3] [] {})).me.v.get 2) 8 0 = 0 := by decide +kernel

/-- R388: −3 becomes 0 and 300 becomes 255, with ovf. -/
theorem test_vcvt_saturates :
    let t := after (.vcvt { d := 3, a := 1, b := 0, sat := true, ca := false, ty := .n8, src := .i32, rm := 0, gd := un })
      (vst 2 2 [0xFFFFFFFD, 300] [] {})
    element (t.me.v.get 3) 16 0 = 0xFF00 ∧ t.me.fflags = 4 := by decide +kernel

/-- R290: the tree and the ordered sum of 2^24 and five ones. -/
def ones6 : State := vst 2 6 [0x4B800000, 0x3F800000, 0x3F800000, 0x3F800000, 0x3F800000, 0x3F800000] [] {}

theorem test_vredtSum :
    let t := after (.vredtSum { d := 1, a := 1, b := 0, ca := false, ty := .f32, rm := 0, gd := un }) ones6
    t.x 1 = 0x4B800002 ∧ t.me.fflags = 16 := by decide +kernel

theorem test_vredoSum : (after (.vredoSum { d := 1, a := 1, b := 0, ca := false, ty := .f32, rm := 0, gd := un }) ones6).x 1 =
    0x4B800000 := by decide +kernel

/-- Compares write predicate bits; p0 cannot be written. -/
theorem test_vcmp :
    let i := fun (d : Reg) => Instr.vcmpLt { d := d, a := 1, b := 2, xb := false, ca := false, cb := false, ty := .i8, gd := un }
    ((after (i 1) (vst 0 3 [0xFF, 1, 2] [0, 1, 3] {})).me.getP 1).toNat = 5 ∧
    (after (i 0) (vst 0 3 [0xFF, 1, 2] [0, 1, 3] {})).me.getP 0 = BitVec.allOnes 512 := by decide +kernel

theorem test_vperm_past_vl : element ((after (.vperm { d := 3, a := 1, b := 2, ca := false, cb := false, ty := .n8, gd := un })
      (vst 0 2 [7, 8, 9] [1, 2] {})).me.v.get 3) 16 0 = 8 := by decide +kernel

theorem test_vld : element ((after (.vld { d := 3, a := 4, imm := 0, ty := .n16, fr := false, sc := 0, gd := un })
      { vst 1 2 [] [] (xs [(4, pad0)]) with mem := Memory.writeN [] pad0.toNat 6 0x000900080007 }).me.v.get 3) 48 0 =
    0x00080007 := by decide +kernel

/-! ### Matrix, regions, messages, copies -/

theorem test_matt : (after (.matt { d := 1, a := 2, rm := 0, gd := un }) (on (xs [(2, 8)]))).x 1 = 8 ∧
    (after (.matt { d := 1, a := 2, rm := 0, gd := un })
      { on (xs [(2, 8)]) with cores := [(0, { xs [(2, 8)] with pc := pc0 }), (3, { mslabs := 0x0F })] }).x 1 = 4 := by
  decide +kernel

/-- With no slab held a product takes trap 0x12. -/
theorem test_mma_noSlab : (after (.mma { d := 0, a := 1, b := 8, ca := false, cb := false, w := false, ty := .f32, rm := 0, gd := un })
    t0).me.tcause = 0x12 := by decide +kernel

/-- A product of one row, one column and two terms that are not zero: 1 × 3 + 2 × 4. -/
theorem test_mma_sum : container ((after (.mma { d := 0, a := 1, b := 8, ca := false, cb := false, w := false, ty := .f32, rm := 0, gd := un })
    (on { ({} : Core) with
      mreq := 1, mslabs := 1, tshape := { rows := 1, cols := 1 }
      v := (((Vector.replicate 64 0).set 1 (vec 32 [0x3F800000, 0x40000000])).set 8 (vec 32 [0x40400000])).set 9
        (vec 32 [0x40800000]) })).me.t.get 0) 0 0 = 0x41300000 := by decide +kernel

/-- The example of R414: chunks of 4, `chk` ten words on; five iterations make two chunks. -/
theorem test_fork : (after (.fork forkOp) (on (xs [(7, 5)]))).myRing.chunks.length = 2 ∧
    (after (.fork forkOp) t0).pc = pc0 + 48 := by decide +kernel

theorem test_region : (after (.rgnBegin { d := 1, imm := 3 }) t0).me.regions.map (·.limit) = [3] ∧
    (after (.rgnBegin { d := 1, imm := 3 }) (on { regions := List.replicate 4 region0 })).me.tcause = 0x2000000000000010 := by
  decide +kernel

theorem test_send : ((after (.send sendOp) (sender 0 100)).fab.pkts.map (fun p => (p.dcore, p.buf.val, p.payload.length))) =
    [(1, 3, 100)] := by decide +kernel

theorem test_mpop : (after (.mpop { d := 1, a := 3, gd := un })
    { receiving rbFull with mem := Memory.writeN [] pad0.toNat 8 64 }).x 1 = 128 := by decide +kernel

theorem test_qwait : (after (.qwait { d := 1, a := 7, sc := 0, gd := un }) (on { q := Vector.replicate 8 0x4000000000000003 })).x 1 =
    0x4000000000000003 := by decide +kernel

/-- The pool has one record, so the second has no number. -/
theorem test_arm : (after (.arm { d := 1, a := 2, sc := 0, gd := un })
    { on (xs [(2, 1)]) with jobs := [(0, { st := .open_, key := 1, poolCount := 1 })] }).x 1 = 1 := by decide +kernel

/-- `tret` and `uret` are privileged in the other mode. -/
theorem test_tret : (after .tret (on { handler := true, tepc := 0x7000 })).pc = 0x7000 ∧ (after .tret t0).me.tcause = 2 := by
  decide +kernel

/-! ### Steps of the module -/

theorem test_governor_raises : ((after (.governorSample 0 255) (dev (fun d => { d with bstep := 2 }))).dev.domain 0).target = some 5 := by
  decide +kernel

theorem test_tamper_halts :
    let t := after (.tamperAlarm 0) (dev (fun d => { d with almPol := 2, keys := [(0, 0), (1, 1)] }))
    t.dev.keys = [] ∧ t.dev.clocksOn = false := by decide +kernel

theorem test_doorbell : ((after (.doorbellWrite ⟨0, 0⟩ 5) (up id)).job 0).bells = [{ idx := 5 }] := by decide +kernel

theorem test_snoop : (after (.snpInv half0) (halfState { st := .s })).outs = [Output.rspIHitSE half0] := by decide +kernel

theorem test_gets : ((after (.gets 5 9) (home { st := .x 6 } [])).dir 9).st = .p [6, 5] := by decide +kernel

/-- A copy of one byte moves it. -/
theorem test_copyKick : Memory.readN (after (.copyKick 0 3 false) { copying {} (copy0 1) with mem := Memory.writeN [] pad0.toNat 1 7 }).mem
    (pad0.toNat + 0x3FFFF) 1 = 7 := by decide +kernel

/-- A step fetches, decodes and executes `li x1, 1` placed at the pc. -/
theorem test_step : (match step (State.reset.withFetchWord 64 (0x0000000148000440)) with
    | .next t => t.x 1 == 1
    | _ => false) = true := by decide +kernel

end

end Sys2Proof.Tests
end

section
/-! Laws of the control registers and of BAR0: which offsets name a register, and what a write of one does (R11, R18, R57,
R84, R176). -/

namespace Sys2Proof.Machine

open Sys2Proof Sys2Proof.Spec

/-! ### Vectors of the module -/

/-- Below the length, the model's read of a list with a default is the vector's own read. -/
theorem toList_getD_of_lt {α : Type} {n : Nat} (v : Vector α n) (i : Nat) (h : i < n) (d : α) : v.toList.getD i d = v[i] := by
  have hl : i < v.toList.length := by rwa [Vector.length_toList]
  rw [List.getD_eq_getElem?_getD, List.getElem?_eq_getElem hl, Option.getD_some, Vector.getElem_toList]

theorem toList_getD_val {α : Type} {n : Nat} (v : Vector α n) (i : Fin n) (d : α) : v.toList.getD i.val d = v.get i :=
  toList_getD_of_lt v i.val i.isLt d

theorem setIfInBounds_of_lt {α : Type} {n : Nat} (v : Vector α n) (i : Nat) (h : i < n) (a : α) :
    v.setIfInBounds i a = v.set i a h := by
  ext k hk
  rw [Vector.getElem_setIfInBounds, Vector.getElem_set]

theorem Dev.link_val (d : Dev) (l : Fin 8) : d.link l.val = d.links.get l := toList_getD_val _ _ _

theorem Dev.pba_val (d : Dev) (l : Fin 8) : d.pba l.val = d.msixPba.get l := toList_getD_val _ _ _

/-! ### Where an answer is present -/

theorem isNone_of_isSome_iff {α : Type} {o : Option α} {p : Prop} (h : o.isSome = true ↔ p) (hp : p) : ¬ o.isNone = true :=
  fun hn => Option.isSome_iff_ne_none.mp (h.mpr hp) (Option.isNone_iff_eq_none.mp hn)

theorem eq_none_of_isSome_iff {α : Type} {o : Option α} {p : Prop} (h : o.isSome = true ↔ p) (hp : ¬ p) : o = none :=
  Option.not_isSome_iff_eq_none.mp fun ho => hp (h.mp ho)

theorem isSome_ite_some {α : Type} (c : Prop) [Decidable c] (a : α) (b : Option α) :
    (if c then some a else b).isSome = true ↔ c ∨ b.isSome = true := by
  by_cases h : c <;> simp [h]

theorem isSome_ite {α : Type} (c : Prop) [Decidable c] (a b : Option α) :
    (if c then a else b).isSome = true ↔ (c ∧ a.isSome = true) ∨ (¬ c ∧ b.isSome = true) := by
  by_cases h : c <;> simp [h]

/-- A write that first asks whether the register is listed has a meaning exactly where it is. -/
theorem isSome_ite_isNone {α β : Type} (o : Option α) (b : Option β) (hb : b.isSome = true) :
    (if o.isNone then none else b).isSome = true ↔ o.isSome = true := by
  cases o with
  | none => simp only [Option.isNone_none, if_true, Option.isSome_none]
  | some a => simp only [Option.isNone_some, Bool.false_eq_true, if_false, hb, Option.isSome_some]

/-! ### When the host interface is open (R28) -/

theorem Dev.hostOpen_iff (d : Dev) (l : Fin 8) : d.hostOpen l.val = true ↔ d.links.get l ≠ none ∧ d.bstep = 5 := by
  simp [Dev.hostOpen, Dev.link_val, Option.isSome_iff_ne_none, and_comm]

theorem Dev.hostOpen_of_trained {d : Dev} {l : Fin 8} (ht : d.links.get l ≠ none) (hb : d.bstep = 5) :
    d.hostOpen l.val = true := (Dev.hostOpen_iff d l).mpr ⟨ht, hb⟩

theorem Dev.hostOpen_of_closed {d : Dev} {l : Fin 8} (h : d.links.get l = none ∨ d.bstep ≠ 5) : d.hostOpen l.val = false := by
  rw [← Bool.not_eq_true, Dev.hostOpen_iff]
  exact fun ⟨ht, hb⟩ => h.elim ht (fun hne => hne hb)

/-! ### The registers that the blocks list -/

/-- The module control block lists the offsets of R18. -/
theorem State.moduleReg_isSome_iff (s : State) (o : Nat) : (s.moduleReg o).isSome = true ↔ ModuleOffset o := by
  unfold State.moduleReg ModuleOffset
  simp only [isSome_ite, Option.isSome_none, Option.isSome_some, Bool.false_eq_true, and_false, and_true, false_or, or_false,
    bne_iff_ne]
  omega

/-- The fabric block lists the offsets of R57. -/
theorem State.fabricReg_isSome_iff (s : State) (o : Nat) : (s.fabricReg o).isSome = true ↔ FabricOffset o := by
  unfold State.fabricReg FabricOffset
  simp only [isSome_ite, Option.isSome_none, Option.isSome_some, Bool.false_eq_true, and_false, and_true, false_or, or_false,
    bne_iff_ne]
  omega

/-- The memory control block lists the offsets of R176. -/
theorem State.memoryReg_isSome_iff (s : State) (o : Nat) : (s.memoryReg o).isSome = true ↔ MemoryOffset o := by
  unfold State.memoryReg MemoryOffset
  simp only [isSome_ite, Option.isSome_none, Option.isSome_some, Bool.false_eq_true, and_false, and_true, false_or, or_false,
    bne_iff_ne]
  split
  case h_5 hbase hhead htail hctl =>
    have hnone : o % 0x40 ≠ 0 ∧ o % 0x40 ≠ 8 ∧ o % 0x40 ≠ 0x10 ∧ o % 0x40 ≠ 0x18 := ⟨hbase, hhead, htail, hctl⟩
    simp only [Option.isSome_none, Bool.false_eq_true, and_false, false_or]
    omega
  all_goals
    simp only [Option.isSome_some, and_true]
    omega

/-- A write to the module control block has a meaning exactly at a listed offset. -/
theorem State.setModuleReg_isSome_iff (s : State) (o : Nat) (w : Word) :
    (s.setModuleReg o w).isSome = true ↔ ModuleOffset o :=
  (isSome_ite_isNone _ _ (by simp only [isSome_ite_some, Option.isSome_some, or_true])).trans (s.moduleReg_isSome_iff o)

theorem State.setFabricReg_isSome_iff (s : State) (o : Nat) (w : Word) :
    (s.setFabricReg o w).isSome = true ↔ FabricOffset o :=
  (isSome_ite_isNone _ _ (by simp only [isSome_ite_some, Option.isSome_some, or_true])).trans (s.fabricReg_isSome_iff o)

theorem State.setMemoryReg_isSome_iff (s : State) (o : Nat) (w : Word) :
    (s.setMemoryReg o w).isSome = true ↔ MemoryOffset o :=
  (isSome_ite_isNone _ _ (by simp only [isSome_ite_some, Option.isSome_some, or_true])).trans (s.memoryReg_isSome_iff o)

/-! ### Io space, block by block (R166) -/

theorem State.setIoReg_memory (s : State) (o : Nat) (w : Word) (h : o < 0x10000) :
    s.setIoReg (0xFFD000000 + o) w = s.setMemoryReg o w := by
  rw [State.setIoReg, if_pos (by omega), Nat.add_sub_cancel_left]

theorem State.setIoReg_fabric (s : State) (o : Nat) (w : Word) (h : o < 0x400000) :
    s.setIoReg (0xFFE000000 + o) w = s.setFabricReg o w := by
  rw [State.setIoReg, if_neg (by omega), if_pos (by omega), Nat.add_sub_cancel_left]

theorem State.setIoReg_module (s : State) (o : Nat) (w : Word) (h : o < 0x10000) :
    s.setIoReg (0xFFF000000 + o) w = s.setModuleReg o w := by
  rw [State.setIoReg, if_neg (by omega), if_neg (by omega), if_pos (by omega), Nat.add_sub_cancel_left]

/-- A write to io space has a meaning exactly at a register of one of the three blocks. -/
theorem State.setIoReg_isSome_iff (s : State) (pa : Nat) (w : Word) : (s.setIoReg pa w).isSome = true ↔ IoRegister pa := by
  unfold State.setIoReg IoRegister
  simp only [isSome_ite, State.setMemoryReg_isSome_iff, State.setFabricReg_isSome_iff, State.setModuleReg_isSome_iff,
    Option.isSome_none, Bool.false_eq_true, and_false, or_false]
  unfold MemoryOffset FabricOffset ModuleOffset
  omega

/-! ### Registers whose write the manual spells out -/

/-- NCLK_CTL of a domain takes the bits that R22 gives it. -/
theorem State.setModuleReg_domain (s : State) (n : Nat) (w : Word) (h : n < 32) :
    s.setModuleReg (8 * n) w =
      some { s with dev := s.dev.setDomain n { s.dev.domain n with ctl := w &&& 0x8777FFFF } } := by
  have hl := isNone_of_isSome_iff (s.moduleReg_isSome_iff (8 * n)) (by unfold ModuleOffset; omega)
  rw [State.setModuleReg, if_neg hl, if_pos (by omega), Nat.mul_div_cancel_left n (by omega)]

/-- PWR_STAT is a field that software may not write (R11). -/
theorem State.setModuleReg_pwrStat (s : State) (w : Word) : s.setModuleReg 0x200 w = some s := by
  simp [State.setModuleReg, State.moduleReg]

/-- A membership entry of a node keeps its valid bit and its key (R58). -/
theorem State.setFabricReg_lmtN (s : State) (n i : Nat) (w : Word) (hn : n < 256) (hi : i < 64) :
    s.setFabricReg (0x1000 * n + 8 * i) w =
      some { s with fab := { s.fab with lmtN := Table.put s.fab.lmtN (64 * n + i) (w &&& 0x800000000000FFFF) } } := by
  have hl := isNone_of_isSome_iff (s.fabricReg_isSome_iff (0x1000 * n + 8 * i)) (by unfold FabricOffset; omega)
  have hnode : (0x1000 * n + 8 * i) / 0x1000 = n := by omega
  have hk : (0x1000 * n + 8 * i) % 0x1000 = 8 * i := by omega
  rw [State.setFabricReg]
  dsimp only
  rw [if_neg hl, if_pos (by omega), hnode, hk, if_pos (by omega), Nat.mul_div_cancel_left i (by omega)]
  rfl

/-- A home mask keeps its low 32 bits (R176). -/
theorem State.setMemoryReg_hmask (s : State) (n : Nat) (w : Word) (h : n < 64) :
    s.setMemoryReg (8 * n) w = some { s with hmask := Table.put s.hmask n (w &&& 0xFFFFFFFF) } := by
  have hl := isNone_of_isSome_iff (s.memoryReg_isSome_iff (8 * n)) (by unfold MemoryOffset; omega)
  rw [State.setMemoryReg, if_neg hl, if_pos (by omega), Nat.mul_div_cancel_left n (by omega)]

/-- FRQ_BASE of a cluster takes an address of 8 KiB alignment (R179). -/
theorem State.setMemoryReg_frqBase (s : State) (c : Nat) (w : Word) (h : c < 32) :
    s.setMemoryReg (0x1000 + 0x40 * c) w =
      some { s with frq := Table.put s.frq c { Table.get s.frq c {} with base := w.toNat / 2 ^ 13 % 2 ^ 39 * 2 ^ 13 } } := by
  have hl := isNone_of_isSome_iff (s.memoryReg_isSome_iff (0x1000 + 0x40 * c)) (by unfold MemoryOffset; omega)
  have hc : (0x1000 + 0x40 * c - 0x1000) / 0x40 = c := by omega
  have hr : (0x1000 + 0x40 * c) % 0x40 = 0 := by omega
  rw [State.setMemoryReg, if_neg hl, if_neg (by omega), if_pos (by omega)]
  dsimp only
  rw [hc, hr]
  rfl

/-! ### BAR0 (R84) -/

/-- The offsets of the six registers of a job page. -/
theorem jobOffset_cases {o : Nat} (h : o % 8 = 0 ∧ o ≤ 0x28) :
    o = 0x000 ∨ o = 0x008 ∨ o = 0x010 ∨ o = 0x018 ∨ o = 0x020 ∨ o = 0x028 := by omega

/-- A job page lists the six registers of R95 and R102. -/
theorem State.setJobReg_isSome_iff (s : State) (l j o : Nat) (w : Word) :
    (s.setJobReg l j o w).isSome = true ↔ o % 8 = 0 ∧ o ≤ 0x28 := by
  constructor
  · intro h
    unfold State.setJobReg at h
    split at h
    case h_7 => cases h
    all_goals decide
  · intro h
    obtain rfl | rfl | rfl | rfl | rfl | rfl := jobOffset_cases h
    all_goals rfl

theorem Job.reg_isSome_iff (k : Job) (o : Nat) : (k.reg o).isSome = true ↔ o % 8 = 0 ∧ o ≤ 0x28 := by
  constructor
  · intro h
    unfold Job.reg at h
    split at h
    case h_7 => cases h
    all_goals decide
  · intro h
    obtain rfl | rfl | rfl | rfl | rfl | rfl := jobOffset_cases h
    all_goals rfl

/-- A write to BAR0 has a meaning exactly for an access of a register's size and alignment. -/
theorem State.setBar0_isSome_iff (s : State) (l o n : Nat) (w : Word) :
    (s.setBar0 l o n w).isSome = true ↔ Bar0Access o n := by
  unfold State.setBar0 Bar0Access
  dsimp only
  by_cases hx : 0x300000 ≤ o ∧ o < 0x301020
  · rw [if_pos hx, if_pos hx, isSome_ite, isSome_ite_some]
    simp only [Option.isSome_none, Option.isSome_some, Bool.false_eq_true, and_false, false_or, or_true, and_true]
    omega
  · rw [if_neg hx, if_neg hx, isSome_ite]
    simp only [isSome_ite_some]
    simp only [isSome_ite, State.setJobReg_isSome_iff, State.setModuleReg_isSome_iff, Option.isSome_none,
      Bool.false_eq_true, and_false, false_or, or_false]
    unfold Bar0Register ModuleOffset
    omega

/-- The words of BAR0 are its registers and the MSI-X areas. -/
theorem State.bar0Word_isSome_iff (s : State) (l o : Nat) :
    (s.bar0Word l o).isSome = true ↔ o % 8 = 0 ∧ (Bar0Register o ∨ (0x300000 ≤ o ∧ o < 0x301020)) := by
  unfold State.bar0Word
  dsimp only
  rw [isSome_ite]
  simp only [isSome_ite_some]
  simp only [isSome_ite, Job.reg_isSome_iff, State.moduleReg_isSome_iff, Option.isSome_none, Option.isSome_some,
    Bool.false_eq_true, and_false, false_or, or_false, and_true]
  unfold Bar0Register ModuleOffset
  omega

/-- A read of BAR0 has data for the same accesses. -/
theorem State.bar0_isSome_iff (s : State) (l o n : Nat) : (s.bar0 l o n).isSome = true ↔ Bar0Access o n := by
  unfold State.bar0 Bar0Access
  by_cases h8 : n = 8
  · subst h8
    rw [if_pos rfl, State.bar0Word_isSome_iff]
    unfold Bar0Register ModuleOffset
    split <;> omega
  · rw [if_neg h8, isSome_ite, Option.isSome_map, State.bar0Word_isSome_iff]
    unfold Bar0Register ModuleOffset
    by_cases h4 : n = 4
    · subst h4
      simp only [Option.isSome_none, Bool.false_eq_true, and_false, or_false, true_and, true_or]
      split <;> omega
    · simp [h8, h4]

/-- With no vector pending, none is sent. -/
theorem State.sendPending_of_no_pending (s : State) (l : Fin 8) (h : s.dev.msixPba.get l = 0) : s.sendPending l.val = s := by
  have hnone : (List.range 256).filter (fun v => (s.dev.pba l.val).getLsbD v && !s.dev.msixMasked l.val v) = [] := by
    rw [List.filter_eq_nil_iff]
    intro v _
    have hbit : (0 : BitVec 256).getLsbD v = false := BitVec.getLsbD_zero
    rw [Dev.pba_val, h, hbit, Bool.false_and]
    exact Bool.false_ne_true
  rw [State.sendPending, hnone, List.foldl_nil]

end Sys2Proof.Machine
end

section
/-! Laws of the error log, of the end of launches and of the closing of jobs: what each changes and what it leaves
(R40, R100, R108, R110). -/

namespace Sys2Proof.Machine

open Sys2Proof Sys2Proof.Spec

/-! ### Repeated updates -/

/-- What each update of a fold leaves, the fold leaves. -/
theorem foldl_keeps {σ β γ : Type} (p : σ → γ) (f : σ → β → σ) (h : ∀ s b, p (f s b) = p s)
    (l : List β) (s : σ) : p (l.foldl f s) = p s := by
  induction l generalizing s with
  | nil => rfl
  | cons b l ih => rw [List.foldl_cons, ih, h]

/-! ### The error log (R100) -/

/-- Sending a vector, or holding it pending, changes the pending bits and what leaves the module. -/
theorem State.raise_frame (s : State) (l v : Nat) :
    ∃ pba outs, s.raise l v = { s with dev := { s.dev with msixPba := pba }, outs := outs } := by
  unfold State.raise
  split
  · exact ⟨_, s.outs, rfl⟩
  · exact ⟨s.dev.msixPba, _, rfl⟩

theorem State.raiseAll_frame (s : State) (v : Nat) :
    ∃ pba outs, s.raiseAll v = { s with dev := { s.dev with msixPba := pba }, outs := outs } := by
  unfold State.raiseAll
  refine List.foldlRecOn
    (motive := fun t : State => ∃ pba outs, t = { s with dev := { s.dev with msixPba := pba }, outs := outs }) _ _
    ⟨s.dev.msixPba, s.outs, rfl⟩ ?_
  rintro t ⟨pba, outs, rfl⟩ l -
  exact State.raise_frame _ l v

/-- A full error log counts the entry lost; another takes it at its tail, with the time, and may interrupt. -/
theorem State.log_cases (s : State) (e : Elog) :
    ((s.dev.elogTail + 1) % 1024 = s.dev.elogHead ∧
      s.log e = { s with dev := { s.dev with elogLost := min (s.dev.elogLost + 1) 4294967295 } }) ∨
    ((s.dev.elogTail + 1) % 1024 ≠ s.dev.elogHead ∧ ∃ pba outs,
      s.log e = { s with
        dev := { s.dev with
          elog := Table.put s.dev.elog s.dev.elogTail { e with time := s.cycle }
          elogTail := (s.dev.elogTail + 1) % 1024, msixPba := pba }
        outs := outs }) := by
  unfold State.log
  split
  next h => exact .inl ⟨h, rfl⟩
  next h =>
    refine .inr ⟨h, ?_⟩
    dsimp only
    split
    · exact State.raiseAll_frame _ 0
    · exact ⟨s.dev.msixPba, s.outs, rfl⟩

/-- Logging leaves memory, cores and jobs, and how the links trained. -/
theorem State.log_keeps (s : State) (e : Elog) :
    (s.log e).mem = s.mem ∧ (s.log e).cores = s.cores ∧ (s.log e).jobs = s.jobs ∧ (s.log e).dev.links = s.dev.links := by
  obtain ⟨-, h⟩ | ⟨-, pba, outs, h⟩ := s.log_cases e <;> simp [h]

/-! ### The end of a launch (R110) -/

@[simp] theorem State.after_dev (s : State) (i : Instr) : (s.after i).dev = s.dev := rfl
@[simp] theorem State.after_jobs (s : State) (i : Instr) : (s.after i).jobs = s.jobs := rfl

theorem State.job_setJob_ne (s : State) (i j : Nat) (k : Job) (h : i ≠ j) : (s.setJob j k).job i = s.job i := by
  simp [State.job, Table.get_put_ne _ _ _ _ _ h]

theorem State.job_of_jobs_eq {s t : State} (h : t.jobs = s.jobs) (j : Nat) : t.job j = s.job j := by
  rw [State.job, State.job, h]

@[simp] theorem State.dropSpill_dev (s : State) (r : Nat) : (s.dropSpill r).dev = s.dev :=
  foldl_keeps State.dev _ (fun _ _ => by rfl) _ _

@[simp] theorem State.dropSpill_jobs (s : State) (r : Nat) : (s.dropSpill r).jobs = s.jobs :=
  foldl_keeps State.jobs _ (fun _ _ => by rfl) _ _

@[simp] theorem State.orphanCopies_dev (s : State) (r : Nat) : (s.orphanCopies r).dev = s.dev := by
  unfold State.orphanCopies; split <;> rfl

@[simp] theorem State.orphanCopies_jobs (s : State) (r : Nat) : (s.orphanCopies r).jobs = s.jobs := by
  unfold State.orphanCopies; split <;> rfl

/-- Ending the thread of a ring leaves the module outside its cores, and the jobs. -/
@[simp] theorem State.endRing_dev (s : State) (r : Nat) : (s.endRing r).dev = s.dev := by
  simp [State.endRing, State.eachCore]

@[simp] theorem State.endRing_jobs (s : State) (r : Nat) : (s.endRing r).jobs = s.jobs := by
  simp [State.endRing, State.eachCore]

@[simp] theorem State.reportDue_dev (s : State) (j i : Nat) : (s.reportDue j i).dev = s.dev := by
  unfold State.reportDue; split <;> rfl

@[simp] theorem State.reportDue_jobs (s : State) (j i : Nat) : (s.reportDue j i).jobs = s.jobs := by
  unfold State.reportDue; split <;> rfl

/-- The threads of a launch ended, running and parked ones. -/
def State.threadsEnded (s : State) (j i : Nat) : State :=
  let s := (s.ringsOf j i).foldl State.endRing s
  (s.parkedOf j i).foldl (fun s r => (s.setRing r { s.ring r with parked := none }).after (.ringAssignment 0)) s

theorem State.endLaunch_eq (s : State) (j i status : Nat) : s.endLaunch j i status =
    let t := s.threadsEnded j i
    ((t.setRec j i { t.recd j i with st := .completing, status := status }).reportDue j i).after
      (.launchCompletion (Fin.ofNat 256 j) (Fin.ofNat 4096 i)) := rfl

@[simp] theorem State.threadsEnded_dev (s : State) (j i : Nat) : (s.threadsEnded j i).dev = s.dev :=
  (foldl_keeps State.dev _ (fun _ _ => by rfl) _ _).trans (foldl_keeps State.dev _ State.endRing_dev _ _)

@[simp] theorem State.threadsEnded_jobs (s : State) (j i : Nat) : (s.threadsEnded j i).jobs = s.jobs :=
  (foldl_keeps State.jobs _ (fun _ _ => by rfl) _ _).trans (foldl_keeps State.jobs _ State.endRing_jobs _ _)

@[simp] theorem State.endLaunch_dev (s : State) (j i status : Nat) : (s.endLaunch j i status).dev = s.dev := by
  simp [State.endLaunch_eq, State.setRec]

/-- Ending a launch writes its record, in the entry of its job. -/
theorem State.endLaunch_jobs (s : State) (j i status : Nat) :
    ∃ recs, (s.endLaunch j i status).jobs = Table.put s.jobs j { s.job j with recs := recs } := by
  simp only [State.endLaunch_eq, State.setRec, State.after_jobs, State.reportDue_jobs, State.setJob_jobs,
    State.threadsEnded_jobs, State.job_of_jobs_eq (s.threadsEnded_jobs j i)]
  exact ⟨_, rfl⟩

theorem State.endLaunch_job_st (s : State) (j i status k : Nat) : ((s.endLaunch j i status).job k).st = (s.job k).st := by
  obtain ⟨recs, h⟩ := s.endLaunch_jobs j i status
  rw [State.job, h]
  by_cases hk : k = j
  · subst hk; rw [Table.get_put_same]
  · rw [Table.get_put_ne _ _ _ _ _ hk]; rfl

/-! ### The closing of jobs (R40) -/

@[simp] theorem State.endJob_dev (s : State) (j status : Nat) : (s.endJob j status).dev = s.dev :=
  foldl_keeps State.dev _ (fun s i => s.endLaunch_dev j i status) _ _

theorem State.endJob_job_st (s : State) (j status k : Nat) : ((s.endJob j status).job k).st = (s.job k).st := by
  unfold State.endJob
  dsimp only
  have hf : ∀ l : List Nat, ((l.foldl (fun s i => s.endLaunch j i status) s).job k).st = (s.job k).st := fun l =>
    foldl_keeps (fun s => (s.job k).st) _ (fun s i => s.endLaunch_job_st j i status k) l s
  by_cases hk : k = j
  · subst hk; rw [State.job_setJob_same, hf]
  · rw [State.job_setJob_ne _ _ _ _ hk, hf]

@[simp] theorem State.beginClose_dev (s : State) (j status : Nat) : (s.beginClose j status).dev = s.dev := by
  simp [State.beginClose]

/-- The job that begins to close is closing, and no other has changed its state. -/
theorem State.beginClose_job_st (s : State) (j status k : Nat) :
    ((s.beginClose j status).job k).st = if k = j then .closing else (s.job k).st := by
  have hj : (s.beginClose j status).job k =
      ((s.endJob j status).setJob j { (s.endJob j status).job j with st := .closing, bells := [] }).job k := rfl
  rw [hj]
  by_cases hk : k = j
  · subst hk; rw [State.job_setJob_same, if_pos rfl]
  · rw [State.job_setJob_ne _ _ _ _ hk, if_neg hk, State.endJob_job_st]

theorem State.liveJobs_eq_nil_iff (s : State) : s.liveJobs = [] ↔ ∀ e ∈ s.jobs, e.2.st = .closed := by
  simp [State.liveJobs]

theorem mem_put_self {α : Type} (t : Table α) (k : Nat) (v : α) : (k, v) ∈ Table.put t k v := by
  induction t with
  | nil => simp [Table.put]
  | cons e t ih =>
      unfold Table.put
      split
      · exact List.mem_cons_self
      · split
        · exact List.mem_cons_self
        · exact List.mem_cons_of_mem _ ih

/-- A job that has begun to close is not yet closed. -/
theorem State.liveJobs_beginClose (s : State) (j status : Nat) : (s.beginClose j status).liveJobs ≠ [] := by
  rw [Ne, State.liveJobs_eq_nil_iff]
  intro h
  have hj := h _ (mem_put_self (s.endJob j status).jobs j { (s.endJob j status).job j with st := .closing, bells := [] })
  simp at hj

/-- An entry that is read is in the table, or is the default. -/
theorem Table.get_mem_or {α : Type} (t : Table α) (k : Nat) (d : α) : (k, Table.get t k d) ∈ t ∨ Table.get t k d = d := by
  induction t with
  | nil => exact .inr rfl
  | cons e t ih =>
      obtain ⟨j, v⟩ := e
      by_cases h : j = k
      · simp [Table.get, Table.get?, h]
      · have hg : Table.get ((j, v) :: t) k d = Table.get t k d := by simp [Table.get, Table.get?, h]
        rw [hg]
        exact ih.imp (List.mem_cons_of_mem _) id

theorem State.mem_openJobs (s : State) (j : Nat) (h : (s.job j).st = .open_) : j ∈ s.openJobs := by
  obtain hm | hd := Table.get_mem_or s.jobs j {}
  · exact List.mem_map.mpr ⟨_, List.mem_filter.mpr ⟨hm, by simpa [State.job] using h⟩, rfl⟩
  · rw [State.job, hd] at h
    cases h

@[simp] theorem State.closeJobs_dev (s : State) : s.closeJobs.dev = s.dev :=
  foldl_keeps State.dev _ (fun s j => s.beginClose_dev j 3) _ _

theorem State.foldl_beginClose_job_st (l : List Nat) (s : State) (status k : Nat) :
    ((l.foldl (fun s j => s.beginClose j status) s).job k).st = if k ∈ l then .closing else (s.job k).st := by
  induction l generalizing s with
  | nil => rfl
  | cons j l ih =>
      rw [List.foldl_cons, ih, State.beginClose_job_st]
      by_cases hj : k = j <;> by_cases hl : k ∈ l <;> simp [hj, hl]

/-- Once the jobs have begun to close, none is open. -/
theorem State.closeJobs_noJobOpen (s : State) : NoJobOpen s.closeJobs := by
  intro j hj
  rw [State.closeJobs, State.foldl_beginClose_job_st] at hj
  split at hj
  · cases hj
  next h => exact h (s.mem_openJobs j hj)

/-- Jobs that are all closed need no closing. -/
theorem State.closeJobs_of_all_closed (s : State) (h : s.liveJobs = []) : s.closeJobs = s := by
  have ho : s.openJobs = [] := by
    rw [State.liveJobs_eq_nil_iff] at h
    simp only [State.openJobs, List.map_eq_nil_iff, List.filter_eq_nil_iff]
    exact fun e he => by simp [h e he]
  rw [State.closeJobs, ho, List.foldl_nil]

/-- While a job is left, beginning to close the open ones closes none. -/
theorem State.liveJobs_closeJobs (s : State) (h : s.liveJobs ≠ []) : s.closeJobs.liveJobs ≠ [] := by
  unfold State.closeJobs
  generalize s.openJobs = l
  induction l generalizing s with
  | nil => exact h
  | cons j l ih => exact ih (s.beginClose j 3) (s.liveJobs_beginClose j 3)

/-! ### Invasive debug (R40) -/

/-- Debug that has been asked for takes effect once no job is left. -/
theorem State.finishDebug_cases (s : State) (h : s.dev.dbgPend = true) :
    (s.liveJobs = [] ∧ s.finishDebug = { s with dev := { s.dev.emptyLinkKeys with
      keys := s.dev.keys.filter (fun e => e.1 == 0), dbg := true, dbgPend := false } }) ∨
    (s.liveJobs ≠ [] ∧ s.finishDebug = s) := by
  by_cases hl : s.liveJobs = [] <;> simp [State.finishDebug, h, hl]

theorem State.finishDebug_jobs (s : State) : s.finishDebug.jobs = s.jobs := by
  unfold State.finishDebug; split <;> rfl

/-- A port whose link keys have been emptied has none. -/
theorem Dev.port_emptyLinkKeys (d : Dev) (p : Nat) (h : p < 24) :
    d.emptyLinkKeys.port p = { d.port p with tx := none, txPend := none, rx := none, rxPend := none } := by
  rw [Dev.port, Dev.port, toList_getD_of_lt _ _ h, toList_getD_of_lt _ _ h]
  exact Vector.getElem_map _ h

end Sys2Proof.Machine
end

section
/-! Links, the test access port, debug, management, doorbells and register writes (R11, R38 to R40, R75, R76, R84, R96): what
their events do, case by case, and the obligation. -/

namespace Sys2Proof.Laws.Module

open Sys2Proof Sys2Proof.Machine Sys2Proof.Spec

/-! ### Link training and loss (R38, R76, R90) -/

/-- A link exists when it is even, or its port is bifurcated (R38). -/
def LinkExists (s : State) (l : Fin 8) : Prop := l.val % 2 = 0 ∨ s.dev.bifur.getLsbD (l.val / 2) = true

/-- A link has trained, and nothing else has changed. -/
def trained (s : State) (l : Fin 8) (k : TrainKind) : State :=
  { s with dev := { s.dev with links := s.dev.links.set l.val (some k) l.isLt } }

/-- What is logged of a partner that cannot run 256-byte flits (R38). -/
def plainPcieEntry : Elog := entry 0 0xFFF 0x0010 7 (Config.severity 0x0010) 0 []

theorem cxlLinkTrain_absent (s : State) (l : Fin 8) (k : TrainKind) (h : ¬ LinkExists s l ∨ s.dev.bstep ≠ 5) :
    cxlLinkTrain l.val k s = s := by
  rw [cxlLinkTrain, if_pos]
  unfold LinkExists at h
  obtain h | h := h
  · obtain ⟨hodd, hb⟩ := not_or.mp h
    have hodd : l.val % 2 = 1 := by omega
    simp [hodd, hb]
  · simp [h]

theorem cxlLinkTrain_present (s : State) (l : Fin 8) (k : TrainKind) (hl : LinkExists s l) (hb : s.dev.bstep = 5) :
    cxlLinkTrain l.val k s = if k = .plainPcie then (trained s l k).log plainPcieEntry else trained s l k := by
  rw [cxlLinkTrain, if_neg, setIfInBounds_of_lt _ _ l.isLt]
  · rfl
  · unfold LinkExists at hl
    obtain h | h := hl <;> simp [hb, h]

/-- Training with a partner that cannot run 256-byte flits is logged (R38). -/
theorem plainPcie_is_logged (s : State) (l : Fin 8) (hl : LinkExists s l) (hb : s.dev.bstep = 5) :
    Completes (.cxlLinkTrain l .plainPcie) s (fun t =>
      t.dev.links = s.dev.links.set l.val (some .plainPcie) l.isLt ∧ t.mem = s.mem ∧ t.cores = s.cores ∧
      ((s.dev.elogTail + 1) % 1024 ≠ s.dev.elogHead →
        ∃ e, t.dev.elog = Table.put s.dev.elog s.dev.elogTail e ∧ e.code = 0x10 ∧ e.time = s.cycle)) := by
  have ht := cxlLinkTrain_present s l .plainPcie hl hb
  rw [if_pos rfl] at ht
  obtain ⟨hm, hc, -, hk⟩ := (trained s l .plainPcie).log_keeps plainPcieEntry
  refine ⟨_, congrArg Host.Outcome.next ht, hk, hm, hc, fun hroom => ?_⟩
  obtain ⟨hfull, -⟩ | ⟨-, pba, outs, h⟩ := (trained s l .plainPcie).log_cases plainPcieEntry
  · exact absurd hfull hroom
  · rw [h]
    exact ⟨_, rfl, rfl, rfl⟩

theorem linkLoss_clears (s : State) (l : Fin 8) : DevBecomes (.cxlLinkLoss l) s { s.dev with
    links := s.dev.links.set l.val none l.isLt, spdm := s.dev.spdm.set l.val {} l.isLt
    ide := s.dev.ide.set l.val 0 l.isLt } := by
  change Host.Outcome.next (cxlLinkLoss l.val s) = _
  rw [cxlLinkLoss, setIfInBounds_of_lt _ _ l.isLt, setIfInBounds_of_lt _ _ l.isLt, setIfInBounds_of_lt _ _ l.isLt]

/-! ### Invasive debug (R40) -/

theorem debug_closes_jobs (s : State) (hd : s.dev.dbg = false) :
    Completes (.invasiveDebugEnable true) s (fun t => NoJobOpen t ∧
      (s.liveJobs = [] → t.dev.dbg = true ∧ t.dev.keys = s.dev.keys.filter (fun e => e.1 == 0) ∧
        ∀ p < 24, (t.dev.port p).tx = none ∧ (t.dev.port p).rx = none) ∧
      (s.liveJobs ≠ [] → t.dev.dbg = false ∧ t.dev.dbgPend = true ∧ t.dev.keys = s.dev.keys)) := by
  let u : State := { s.closeJobs with dev := { s.closeJobs.dev with dbgPend := true } }
  have hu : invasiveDebugEnable true s = u.finishDebug := by rw [invasiveDebugEnable, if_neg (by simp [hd])]
  refine ⟨_, congrArg Host.Outcome.next hu, ?_, ?_, ?_⟩
  · intro j
    rw [State.job_of_jobs_eq u.finishDebug_jobs]
    exact s.closeJobs_noJobOpen j
  · intro hl
    have hclosed : u.liveJobs = [] := by
      change s.closeJobs.liveJobs = []
      rw [s.closeJobs_of_all_closed hl, hl]
    obtain ⟨-, h⟩ | ⟨hne, -⟩ := u.finishDebug_cases rfl
    · rw [h]
      refine ⟨rfl, by simp [u], fun p hp => ?_⟩
      have hport := Dev.port_emptyLinkKeys u.dev p hp
      exact ⟨congrArg Ulk.tx hport, congrArg Ulk.rx hport⟩
    · exact absurd hclosed hne
  · intro hl
    obtain ⟨hnil, -⟩ | ⟨-, h⟩ := u.finishDebug_cases rfl
    · exact absurd hnil (s.liveJobs_closeJobs hl)
    · rw [h]
      simp [u, hd]

/-! ### IDE keys (R75) -/

theorem getLsbD_setBit_true (b : BitVec 4) (k : Fin 2) (i : Nat) (hi : i < 4) :
    (setBit b k.val true).getLsbD i = if i = k.val then true else b.getLsbD i := by
  have hall : ∀ (i : Fin 4) (k : Fin 2) (b : BitVec 4),
      (setBit b k.val true).getLsbD i.val = if i.val = k.val then true else b.getLsbD i.val := by decide
  exact hall ⟨i, hi⟩ k b

theorem ideKmRequest_open (s : State) (l : Fin 8) (stream : Fin 2) (h : s.dev.hostOpen l.val = true) :
    ideKmRequest l.val stream.val false s = { s with
      dev := { s.dev with ide := s.dev.ide.set l.val (setBit (s.dev.ide.get l) stream.val true) l.isLt }
      outs := s.outs ++ [Output.ideKm l.val stream.val] } := by
  rw [ideKmRequest, if_neg (by simp [h]), toList_getD_val, ← setIfInBounds_of_lt _ _ l.isLt]
  rfl

/-! ### Doorbells (R76, R96) -/

/-- A doorbell that finds room in its queue on a link with CXL.cache and CXL.mem is queued. -/
theorem doorbell_queued (s : State) (l : Fin 8) (j : Fin 256) (w : Word) (hl : s.dev.links.get l = some .full)
    (hroom : (s.job j.val).bells.length < 256) :
    s.doorbell l.val j.val w = (s.setJob j.val { s.job j.val with
      bells := (s.job j.val).bells ++ [{ idx := w.toNat % 4096, link := l.val, lines := s.heldWrites l.val }] }).after
        (.doorbellServe j) := by
  rw [State.doorbell, Dev.link_val, if_pos (by simp [hl]), State.ringBell]
  simp [hroom, fld]

/-- A state in which a doorbell of a job has been counted as rejected, and memory is as it was. -/
def BellLost (s : State) (j : Nat) (t : State) : Prop :=
  t.job j = { s.job j with rej := ((s.job j).rej + 1) % 2 ^ 24 } ∧ t.mem = s.mem

theorem bellLost_log (s : State) (j : Nat) (e : Elog) :
    BellLost s j ((s.setJob j { s.job j with rej := ((s.job j).rej + 1) % 2 ^ 24 }).log e) := by
  obtain ⟨hm, -, hj, -⟩ := State.log_keeps (s.setJob j { s.job j with rej := ((s.job j).rej + 1) % 2 ^ 24 }) e
  exact ⟨(State.job_of_jobs_eq hj j).trans (State.job_setJob_same _ _ _), hm⟩

theorem doorbell_overflow (s : State) (l : Fin 8) (j : Nat) (w : Word) (hl : s.dev.links.get l = some .full)
    (hfull : 256 ≤ (s.job j).bells.length) : BellLost s j (s.doorbell l.val j w) := by
  rw [State.doorbell, Dev.link_val, if_pos (by simp [hl]), State.ringBell, if_neg (by omega)]
  exact bellLost_log s j _

theorem doorbell_rejected (s : State) (l : Fin 8) (j : Nat) (w : Word) (hl : s.dev.links.get l ≠ some .full) :
    BellLost s j (s.doorbell l.val j w) := by
  rw [State.doorbell, Dev.link_val, if_neg (by simpa using hl)]
  exact bellLost_log s j _

theorem doorbellWrite_open (s : State) (l : Fin 8) (j : Fin 256) (w : Word) (h : s.dev.hostOpen l.val = true) :
    exec (.doorbellWrite ⟨l, j⟩ w) s = .next (s.doorbell l.val j.val w) := by
  change execDoorbellWrite ⟨l, j⟩ w s = _
  rw [execDoorbellWrite, if_pos h]

theorem doorbellWrite_closed (s : State) (l : Fin 8) (j : Fin 256) (w : Word) (h : s.dev.hostOpen l.val = false) :
    Stutters (.doorbellWrite ⟨l, j⟩ w) s := by
  change execDoorbellWrite ⟨l, j⟩ w s = _
  rw [execDoorbellWrite, if_neg (by simp [h])]

/-! ### Register writes (R11, R84) -/

/-- A write that has a meaning in io space answers the state it makes. -/
theorem registerWrite_io (s t : State) (pa : Nat) (w : Word) (h : s.setIoReg pa w = some t) :
    exec (.registerWrite (.io pa) w) s = .next t := by
  change Host.Outcome.next ((s.setIoReg pa w).getD s) = _
  rw [h, Option.getD_some]

/-- One that names no register changes nothing. -/
theorem registerWrite_io_unlisted (s : State) (pa : Nat) (w : Word) (h : ¬ IoRegister pa) :
    Stutters (.registerWrite (.io pa) w) s := by
  have hn : s.setIoReg pa w = none := eq_none_of_isSome_iff (s.setIoReg_isSome_iff pa w) h
  change Host.Outcome.next ((s.setIoReg pa w).getD s) = _
  rw [hn, Option.getD_none]

theorem registerWrite_bar0_closed (s : State) (l : Fin 8) (o n : Nat) (w : Word) (h : s.dev.hostOpen l.val = false) :
    Stutters (.registerWrite (.bar0 l o n) w) s := by
  change Host.Outcome.next (registerWrite (.bar0 l o n) w s) = _
  simp [registerWrite, h]

theorem registerWrite_bar0_unlisted (s : State) (l : Fin 8) (o n : Nat) (w : Word) (h : s.dev.hostOpen l.val = true)
    (ha : ¬ Bar0Access o n) :
    exec (.registerWrite (.bar0 l o n) w) s = .next { s with outs := s.outs ++ [Output.unsupported] } := by
  have hn : s.setBar0 l.val o n w = none := eq_none_of_isSome_iff (s.setBar0_isSome_iff l.val o n w) ha
  change Host.Outcome.next (registerWrite (.bar0 l o n) w s) = _
  simp [registerWrite, h, hn, State.emit]

theorem readBar0_unlisted (s : State) (l : Fin 8) (o n : Nat) (h : s.dev.hostOpen l.val = true) (ha : ¬ Bar0Access o n) :
    s.readBar0 l.val o n = { s with outs := s.outs ++ [Output.unsupported] } := by
  have hn : s.bar0 l.val o n = none := eq_none_of_isSome_iff (s.bar0_isSome_iff l.val o n) ha
  simp [State.readBar0, h, hn, State.emit]

theorem readBar0_listed (s : State) (l : Fin 8) (o n : Nat) (h : s.dev.hostOpen l.val = true) (ha : Bar0Access o n) :
    ∃ v, s.readBar0 l.val o n = { s with outs := s.outs ++ [Output.readData v] } := by
  obtain ⟨v, hv⟩ := Option.isSome_iff_exists.mp ((s.bar0_isSome_iff l.val o n).mpr ha)
  exact ⟨v, by simp [State.readBar0, h, hv, State.emit]⟩

/-- ELOG_HEAD takes ten bits (R100); with no vector pending, nothing else changes. -/
theorem registerWrite_elogHead (s : State) (l : Fin 8) (w : Word) (h : s.dev.hostOpen l.val = true)
    (hp : s.dev.msixPba.get l = 0) :
    DevBecomes (.registerWrite (.bar0 l 0x2000 8) w) s { s.dev with elogHead := w.toNat % 1024 } := by
  have hw : s.setBar0 l.val 0x2000 8 w = some { s with dev := { s.dev with elogHead := w.toNat % 1024 } } := by
    simp [State.setBar0, fld]
  change Host.Outcome.next (registerWrite (.bar0 l 0x2000 8) w s) = _
  simp only [registerWrite, h, hw, Bool.not_true, Bool.false_eq_true, if_false]
  exact congrArg Host.Outcome.next (State.sendPending_of_no_pending _ l hp)

/-! ### The obligation -/

/-- Settles O47, group by group. The test access port, management and firmware staging are what their events compute; the
rest goes through the laws of the error log, of the closing of jobs and of the registers. -/
theorem linksDebugAndRegistersFollowTheirWrites : Obligations.LinksDebugAndRegistersFollowTheirWrites := by
  unfold Obligations.LinksDebugAndRegistersFollowTheirWrites
  refine ⟨fun s l k => ⟨fun h => ?absent, fun hl hb hk => ?trained, fun hl hb hk => ?plain, linkLoss_clears s l⟩,
    fun s => ⟨rfl, rfl, rfl, rfl⟩,
    fun s => ⟨fun hd => ?debugOn, rfl, debug_closes_jobs s⟩,
    fun s => ⟨_, rfl, rfl, rfl, rfl, _, rfl, rfl⟩, fun s stage image => rfl, fun s v => rfl,
    fun s l stream => ⟨fun h => ?ideClosed, fun ht hb => ?ideOpen⟩, fun s l j w => ?doorbells, fun s w => ?registers⟩
  case absent => exact congrArg Host.Outcome.next (cxlLinkTrain_absent s l k h)
  case trained =>
    have ht := cxlLinkTrain_present s l k hl hb
    rw [if_neg hk] at ht
    exact congrArg Host.Outcome.next ht
  case plain =>
    subst hk
    exact plainPcie_is_logged s l hl hb
  case debugOn => exact congrArg Host.Outcome.next (if_pos (by simp [hd]))
  case ideClosed => exact congrArg Host.Outcome.next (if_pos (by simp [Dev.hostOpen_of_closed h]))
  case ideOpen =>
    exact ⟨_, fun i hi => getLsbD_setBit_true (s.dev.ide.get l) stream i hi,
      congrArg Host.Outcome.next (ideKmRequest_open s l stream (Dev.hostOpen_of_trained ht hb))⟩
  case doorbells =>
    have hopen (ht : s.dev.links.get l ≠ none) (hb : s.dev.bstep = 5) :=
      doorbellWrite_open s l j w (Dev.hostOpen_of_trained ht hb)
    have htrained (hl : s.dev.links.get l = some .full) : s.dev.links.get l ≠ none := by simp [hl]
    exact ⟨fun h => doorbellWrite_closed s l j w (Dev.hostOpen_of_closed h),
      fun hb hl hroom => (hopen (htrained hl) hb).trans (congrArg _ (doorbell_queued s l j w hl hroom)),
      fun hb hl hfull => ⟨_, hopen (htrained hl) hb, doorbell_overflow s l j.val w hl hfull⟩,
      fun hb ht hl => ⟨_, hopen ht hb, doorbell_rejected s l j.val w hl⟩⟩
  case registers =>
    refine ⟨fun n hn => registerWrite_io _ _ _ _ ?_, registerWrite_io _ _ _ _ ?_,
      fun pa hpa => registerWrite_io_unlisted s pa w hpa, fun n hn i hi => registerWrite_io _ _ _ _ ?_,
      fun n hn => registerWrite_io _ _ _ _ ?_, fun c hc => registerWrite_io _ _ _ _ ?_,
      fun l h o n => registerWrite_bar0_closed s l o n w (Dev.hostOpen_of_closed h),
      fun l ht hb o n ha => ⟨registerWrite_bar0_unlisted s l o n w (Dev.hostOpen_of_trained ht hb) ha,
        readBar0_unlisted s l o n (Dev.hostOpen_of_trained ht hb) ha⟩,
      fun l ht hb o n => readBar0_listed s l o n (Dev.hostOpen_of_trained ht hb),
      fun l ht hb => registerWrite_elogHead s l w (Dev.hostOpen_of_trained ht hb)⟩
    · rw [State.setIoReg_module s _ w (by omega), State.setModuleReg_domain s n w hn]
    · rw [State.setIoReg_module s 0x200 w (by omega), State.setModuleReg_pwrStat]
    · rw [Nat.add_assoc, State.setIoReg_fabric s _ w (by omega), State.setFabricReg_lmtN s n i w hn hi]
    · rw [State.setIoReg_memory s _ w (by omega), State.setMemoryReg_hmask s n w hn]
    · rw [show 0xFFD001000 + 0x40 * c = 0xFFD000000 + (0x1000 + 0x40 * c) by omega,
        State.setIoReg_memory s _ w (by omega), State.setMemoryReg_frqBase s c w hc]

end Sys2Proof.Laws.Module
end
